-- ==== Sys2Proof/Word.lean ====
section
/-! DEFINITION. The number types of the gateway's fields and the fixed tables they index. -/

namespace Sys2Proof

/-- One byte of a frame, a payload or an entry image (00_scope.md, Conventions). -/
abbrev Byte := BitVec 8

/-- A two-byte field: TAG, LABEL, detail, TIMEOUT, INTERVAL. -/
abbrev Half := BitVec 16

/-- A 32-bit count: time base, deadlines, counters. -/
abbrev Count := BitVec 32

/-- A link port, P0 to P3. -/
abbrev Port := Fin 4

/-- A station number; 255 stands for "none" (00_scope.md, Terms). -/
abbrev Station := BitVec 8

/-- A service number within a station, 0 to 4095. -/
abbrev Svc := BitVec 12

/-- A frame's TAG (R49, R178). -/
abbrev Tag := BitVec 16

/-- A ring, 0 to 3; numerically lower is more trusted (00_scope.md, Zones and rings). -/
abbrev RingNo := BitVec 2

/-- One of the data queues D0 to D3 of a port. -/
abbrev DataQ := Fin 4

abbrev BufIx := Fin 256
abbrev RuleIx := Fin 256
abbrev SvcIx := Fin 128
abbrev CallIx := Fin 128

/-- Entry `i` of a fixed table. -/
def look {α : Type} {n : Nat} (v : Vector α n) (i : Fin n) : α := v[i.val]

/-- A fixed table with entry `i` replaced. -/
def put {α : Type} {n : Nat} (v : Vector α n) (i : Fin n) (x : α) : Vector α n := v.set i.val x

@[simp] theorem look_put_self {α : Type} {n : Nat} (v : Vector α n) (i : Fin n) (x : α) :
    look (put v i x) i = x := by simp [look, put]

theorem look_put {α : Type} {n : Nat} (v : Vector α n) (i j : Fin n) (x : α) :
    look (put v i x) j = if i = j then x else look v j := by
  simp [look, put, Vector.getElem_set, Fin.ext_iff]

@[simp] theorem look_put_ne {α : Type} {n : Nat} (v : Vector α n) {i j : Fin n} (x : α)
    (h : i ≠ j) : look (put v i x) j = look v j := by simp [look_put, h]

@[simp] theorem look_replicate {α : Type} {n : Nat} (x : α) (i : Fin n) :
    look (Vector.replicate n x) i = x := by simp [look]

@[simp] theorem look_map {α β : Type} {n : Nat} (f : α → β) (v : Vector α n) (i : Fin n) :
    look (v.map f) i = f (look v i) := by simp [look]

@[simp] theorem put_look {α : Type} {n : Nat} (v : Vector α n) (i : Fin n) :
    put v i (look v i) = v := by simp [look, put]

/-- Two tables with the same entries are the same table. -/
theorem look_ext {α : Type} {n : Nat} {v w : Vector α n} (h : ∀ i, look v i = look w i) : v = w := by
  apply Vector.ext
  intro i hi
  exact h ⟨i, hi⟩

end Sys2Proof
end

