-- ==== Sys2Proof/Syntax.lean ====
section
/-! DEFINITION. The 46 commands of spec/opcode_table.json with their operands.
The table names each step and gives it no operands of its own; the operands are what the step's rule says the
step is about (a port, a queue, a record, a flag, the characters received). -/

namespace Sys2Proof

/-- The reason of a NAK (chapter The Segment Link, 6.1). -/
inductive NakReason where
  | check | full | busy
  deriving DecidableEq, Repr

/-- An answer to a frame (chapter The Segment Link, terms). -/
inductive Answer where
  | ack
  | nak (reason : NakReason)
  deriving DecidableEq, Repr

/-- A character the line coding can read (6.1, R115). -/
inductive Character where
  | idleMark
  | start
  | data (b : Byte)
  | endChar
  | control
  deriving DecidableEq, Repr

/-- What may interrupt a FRAME (R112). -/
inductive Interruption where
  | character (c : Character)
  | unrecognised
  | lossOfSignal
  deriving DecidableEq, Repr

/-- The 15 event flags of R163, in the order of their bits (R179). -/
inductive EventFlag where
  | noRule | short | notPresent | accessRefused | ringRefused | callTimeout | undeliverable | staleReply
  | replyMismatch | replyLost | gwReplyLost | admitRefused | mgmtRefused | mirrorLost | portRecovered
  deriving DecidableEq, Repr

/-- The 18 level conditions of R164. -/
inductive Level where
  | linkUp (p : Port)
  | warn (p : Port)
  | isolated (p : Port)
  | holding (p : Port)
  | poolLow
  | callsHigh
  deriving DecidableEq, Repr

/-- The 51 flags of the event set (R163, R164). -/
inductive Flag where
  | event (e : EventFlag)
  | rise (l : Level)
  | fall (l : Level)
  deriving DecidableEq, Repr

/-- One act that another block has been handed and has not yet taken: the claims of R60, R61 and R64, the withdraw of
R85 and the notice trigger of R167. -/
inductive Demand where
  | delivered (p : Port)
  | undeliverable (p : Port)
  | targetPortDown (p : Port)
  | portDown (p : Port)
  | withdraw (p : Port) (tag : Tag)
  | notice (f : Flag)
  deriving DecidableEq, Repr

/-- R148: claims and demands that wait may be taken between an operation's effects and the delivery of its reply, and
the call reply of a CANCEL CALL may join the G queue before the management reply or after it (log 11). -/
structure Interleaving where
  callReplyAfter : Bool
  between : List Demand
  deriving DecidableEq, Repr

/-- One constructor per row of spec/opcode_table.json. -/
inductive Instr where
  | resetAssert
  | resetRelease (bringup : Port) (stn : BitVec 3)
  | frameReceived (p : Port) (chars : List Byte)
  | brokenFrame (p : Port) (by_ : Interruption)
  | ackReceived (p : Port)
  | nakReceived (p : Port) (reason : NakReason)
  | ackWindowExpiry (p : Port)
  | strayAnswer (p : Port) (a : Answer)
  | holdReceived (p : Port) (duration : Byte)
  | partnerHoldExpiry (p : Port)
  | idleRun (p : Port)
  | lossOfSignal (p : Port)
  | unrecognisedCharacter (p : Port)
  | transmitterSymbolEnd (p : Port)
  | frameSent (p : Port)
  | attemptStart (p : Port)
  | intervalTimerExpiry (p : Port) (q : DataQ)
  | holdResendExpiry (p : Port)
  | decision (p : Port)
  | deliveredClaim (p : Port)
  | undeliverableClaim (p : Port)
  | targetPortDownClaim (p : Port)
  | portDownClaim (p : Port)
  | callExpiry (i : CallIx)
  | withdraw (p : Port) (tag : Tag)
  | noticeAttempt (f : Flag)
  | managementTake (o : Interleaving)
  | identify (o : Interleaving)
  | readTable (o : Interleaving)
  | writeTableRule (o : Interleaving)
  | writeTableService (o : Interleaving)
  | writeTablePort (o : Interleaving)
  | writeTableQueue (o : Interleaving)
  | writeTableGateway (o : Interleaving)
  | clearTable (o : Interleaving)
  | readState (o : Interleaving)
  | setPortState (o : Interleaving)
  | abortQueue (o : Interleaving)
  | cancelCall (o : Interleaving)
  | readCall (o : Interleaving)
  | readEvents (o : Interleaving)
  | readCounters (o : Interleaving)
  | probe (o : Interleaving)
  | restart (o : Interleaving)
  | restartAct
  | characterRecognised (p : Port) (c : Character)
  deriving DecidableEq, Repr

end Sys2Proof
end

