-- ==== Sys2Proof/Config.lean ====
section
/-! DEFINITION. What the part fixes: its identity, its capacities and its thresholds.
The manual leaves no result value open, so there is no free value here. -/

namespace Sys2Proof.Config

/-- R150. -/
def vendorCode : Half := 3301
/-- R150. -/
def partCode : Half := 4004
/-- R150. -/
def revision : Byte := 1
/-- R71: the depth limit of every G queue. -/
def gDepth : Nat := 8
/-- R144: entries of the management input queue. -/
def inputQueueEntries : Nat := 4
/-- R115: idle marks in one idle run. -/
def idleRunLength : Nat := 16
/-- R136: idle runs that complete a recovery. -/
def recoveryRuns : Nat := 64
/-- R121: the error score of an ISOLATED port. -/
def scoreCap : Nat := 255
/-- R122: the error score at which WARN is held. -/
def warnScore : Nat := 96
/-- R111, R112: the raise of the error score for a bad or broken frame. -/
def badFrameRaise : Nat := 4
/-- R81: the raise of the error score for NAK CHECK and for an ack window that ran out. -/
def failureRaise : Nat := 8
/-- R111: the data characters the frame receiver keeps. -/
def keptCharacters : Nat := 61
/-- R178: the bytes of a header. -/
def headerBytes : Nat := 11
/-- R178: the largest LENGTH of a good frame. -/
def maxPayload : Nat := 48
/-- R20: the arrived payload bytes a mirror copy carries at most. -/
def mirrorPayload : Nat := 29
/-- R151: the bytes a READ TABLE reply has for entry images. -/
def readTableRoom : Nat := 44
/-- R161: the GSN at pin reset is this plus the strap value. -/
def gsnBase : Station := 240
/-- R20, R168: the station number that stands for "none". -/
def noStation : Station := 255
/-- R29: the detail of a refusal that concerns no entry. -/
def noDetail : Half := 65535

/-- DESIGN CHOICE (log 1): the BRINGUP straps the model's reset state was released with. -/
def resetBringup : Port := 0
/-- DESIGN CHOICE (log 1): the STN straps the model's reset state was released with. -/
def resetStn : BitVec 3 := 0

end Sys2Proof.Config
end

