-- ==== Sys2Proof/Machine/State.lean ====
section
/-! DEFINITION. The gateway's state as plain data: every table, record, queue, count, setting and flag the manual names,
and the machine right after pin reset. -/

namespace Sys2Proof.Machine

/-- No command of the table stops the machine: the manual answers a refused request with a status, a refused frame with
a NAK and a lost reply with an event flag, and it names no condition in which the gateway halts. So there is no fault to
raise; the type is closed with no constructor. -/
inductive Fault where
  deriving DecidableEq, Repr

/-- Why a command may have no meaning. -/
inductive Refusal where
  /-- Raised by `exec` alone, in the arm of a command that has no meaning yet; safe: the model stops where the gateway
  goes on. No arm uses it. -/
  | notModelled (mnemonic : String)
  deriving DecidableEq, Repr

/-! ## Frames (R178) -/

inductive Kind where
  | query | command | reply | notice
  deriving DecidableEq, Repr

/-- The status codes of section 11.5. -/
inductive Status where
  | ok | rule | short | noService | notPresent | access | ring | tooLong | portDown | noRecord
  | queueFull | timeout | undeliverable | cancelled
  | badOp | badTable | badIndex | badValue | overlap | badTarget | wrongState | selfPort | badLength
  deriving DecidableEq, Repr

/-- The header fields of a frame (R178). -/
structure Header where
  kind : Kind
  ring : RingNo
  urgency : BitVec 3
  dst : Station
  src : Station
  svc : Svc
  length : Byte
  tag : Tag
  label : Half
  status : Byte
  deriving DecidableEq, Repr

/-! ## Tables and settings -/

/-- The KINDS set of a rule entry (R1). -/
structure KindSet where
  query : Bool
  command : Bool
  reply : Bool
  notice : Bool
  deriving DecidableEq, Repr

inductive Verdict where
  | forward | discard | refuse
  deriving DecidableEq, Repr

/-- A rule entry (R1). `fixLen` none is absent, `urgency` none is KEEP; under `labelKeep` the LABEL bytes are kept as
written and unused (R180). -/
structure RuleEntry where
  valid : Bool
  src : Station
  srcMask : Byte
  dst : Station
  dstMask : Byte
  svc : Svc
  svcMask : Svc
  kinds : KindSet
  maxRing : RingNo
  verdict : Verdict
  minLen : Byte
  fixLen : Option Byte
  cmdCap : Bool
  noticeCap : Bool
  qclass : DataQ
  urgency : Option (BitVec 3)
  labelKeep : Bool
  label : Half
  mirror : Bool
  oneShot : Bool
  deriving DecidableEq, Repr

/-- The reset image of R1. -/
def RuleEntry.reset : RuleEntry where
  valid := false
  src := 0
  srcMask := 0
  dst := 0
  dstMask := 0
  svc := 0
  svcMask := 0
  kinds := ⟨false, false, false, false⟩
  maxRing := 0
  verdict := .discard
  minLen := 0
  fixLen := none
  cmdCap := false
  noticeCap := false
  qclass := 0
  urgency := none
  labelKeep := true
  label := 0
  mirror := false
  oneShot := false

inductive ServiceKind where
  | direct | shared | gate
  deriving DecidableEq, Repr

/-- A service entry (R23). -/
structure ServiceEntry where
  valid : Bool
  station : Station
  svcLo : Svc
  svcHi : Svc
  kind : ServiceKind
  ring : RingNo
  present : Bool
  cmdOk : Bool
  noticeOk : Bool
  port : Port
  limit : Byte
  timeout : Half
  target : SvcIx
  entrySvc : Svc
  words : Byte
  deriving DecidableEq, Repr

/-- The reset image of R23. -/
def ServiceEntry.reset : ServiceEntry where
  valid := false
  station := 0
  svcLo := 0
  svcHi := 0
  kind := .direct
  ring := 0
  present := false
  cmdOk := false
  noticeOk := false
  port := 0
  limit := 0
  timeout := 1000
  target := 0
  entrySvc := 0
  words := 0

inductive Arb where
  | urgency | queue
  deriving DecidableEq, Repr

inductive Recovery where
  | auto | park | manual
  deriving DecidableEq, Repr

/-- A PORT record (R140). -/
structure PortRec where
  portRing : RingNo
  mgmtAdmit : Bool
  ruleStart : Byte
  ruleCount : Half
  quota : Byte
  holdMark : Byte
  resumeMark : Byte
  holdTime : Byte
  ackWindow : Byte
  retry : Byte
  arb : Arb
  recovery : Recovery
  deriving DecidableEq, Repr

/-- The reset values of R140, for the bring-up port and for the other ports. -/
def PortRec.reset (bringup : Bool) : PortRec where
  portRing := if bringup then 0 else 3
  mgmtAdmit := bringup
  ruleStart := 0
  ruleCount := 0
  quota := 64
  holdMark := 48
  resumeMark := 24
  holdTime := 20
  ackWindow := 20
  retry := 3
  arb := .urgency
  recovery := .auto

/-- A QUEUE record (R71). -/
structure QueueRec where
  depth : Byte
  interval : Half
  deriving DecidableEq, Repr

/-- R71. -/
def QueueRec.reset : QueueRec := ⟨16, 0⟩

/-- The GATEWAY record (R161). `monitorPort` none is MONITOR_PORT none. -/
structure Settings where
  gsn : Station
  strict : Bool
  reserve : Byte
  mgmtReadRing : RingNo
  mgmtWriteRing : RingNo
  reportStation : Station
  reportPort : Port
  reportSvc : Svc
  noticeEn : BitVec 64
  monitorPort : Option Port
  monitorStation : Station
  monitorSvc : Svc
  mDepth : Byte
  lowMark : Byte
  highMark : Byte
  deriving DecidableEq, Repr

/-- The reset values of R161, with the GSN and the REPORT_PORT the reset gives. -/
def Settings.reset (gsn : Station) (bringup : Port) : Settings where
  gsn := gsn
  strict := false
  reserve := 4
  mgmtReadRing := 1
  mgmtWriteRing := 0
  reportStation := 255
  reportPort := bringup
  reportSvc := 0
  noticeEn := 0
  monitorPort := none
  monitorStation := 255
  monitorSvc := 0
  mDepth := 16
  lowMark := 32
  highMark := 112

/-- Everything that only management operations, pin reset and RESTART write (R151). -/
structure Tables where
  rules : Vector RuleEntry 256
  services : Vector ServiceEntry 128
  portRecs : Vector PortRec 4
  /-- The QUEUE record of port p and data queue Dq stands at index p × 4 + q (R151). -/
  queueRecs : Vector QueueRec 16
  settings : Settings
  deriving DecidableEq, Repr

def Tables.reset (gsn : Station) (bringup : Port) : Tables where
  rules := Vector.replicate 256 RuleEntry.reset
  services := Vector.replicate 128 ServiceEntry.reset
  portRecs := put (Vector.replicate 4 (PortRec.reset false)) bringup (PortRec.reset true)
  queueRecs := Vector.replicate 16 QueueRec.reset
  settings := Settings.reset gsn bringup

/-! ## Queues, attempts and the line -/

/-- The mirror trailer (R20). -/
structure Trailer where
  arrivalPort : Port
  rule : RuleIx
  outcome : Byte
  arrivalTime : Count
  deriving DecidableEq, Repr

inductive EntryKind where
  | forwarded | gateway | mirror
  deriving DecidableEq, Repr

inductive NoRetry where
  | none | withdraw | abort
  deriving DecidableEq, Repr

/-- A queue entry (R72). `restartReply` is the model's own field: it marks the entry that carries a RESTART reply, which
the scheduler must know when it leaves G (R83, R160; log 13). -/
structure QueueEntry where
  kind : EntryKind
  header : Header
  buffer : Option BufIx
  callTag : Option Tag
  attempts : Nat
  oneShot : Bool
  noRetry : NoRetry
  inTransmission : Bool
  trailer : Option Trailer
  restartReply : Bool
  deriving DecidableEq, Repr

/-- The queues of a port (R70). -/
inductive QueueId where
  | data (q : DataQ)
  | g
  | m
  deriving DecidableEq, Repr

/-- How far an attempt is (R79, R119): its FRAME not begun, its FRAME being sent, or its ack window running with the
microseconds it has left. -/
inductive Phase where
  | waiting
  | sending
  | window (left : Nat)
  deriving DecidableEq, Repr

/-- The attempt in progress (R79): the queue whose head it sends, the bytes of its FRAME (header, payload, check word) and
how far it is. -/
structure Attempt where
  queue : QueueId
  frame : List Byte
  phase : Phase
  deriving DecidableEq, Repr

/-- A control symbol (R108): an answer, or an own HOLD with its duration in units of 50 µs. -/
inductive Control where
  | answer (a : Answer)
  | hold (duration : Byte)
  deriving DecidableEq, Repr

/-- What the transmitter is sending (R108, R109). -/
inductive Symbol where
  | silent
  | idleMark
  | control (c : Control)
  | frame (bytes : List Byte)
  deriving DecidableEq, Repr

/-- The FRAME a receiver is in (R111, R132): none; one it collects, with the data characters kept and the count of all that
came; one it passes over to its end. -/
inductive Reception where
  | none
  | taking (kept : List Byte) (count : Nat)
  | passingOver
  deriving DecidableEq, Repr

inductive PortState where
  | disabled | config | listen | forward | isolated
  deriving DecidableEq, Repr

inductive ReturnState where
  | listen | forward
  deriving DecidableEq, Repr

/-- The per-port counters of R170. -/
structure PortCounters where
  rxGood : Count
  rxCheck : Count
  nakFullSent : Count
  nakBusySent : Count
  txOk : Count
  txFail : Count
  txDropped : Count
  deriving DecidableEq, Repr

def PortCounters.reset : PortCounters := ⟨0, 0, 0, 0, 0, 0, 0⟩

/-- What one port holds besides its settings. Timers are the microseconds they have left; none is a timer that does not
run. -/
structure PortSt where
  state : PortState
  returnState : ReturnState
  recoveryTally : Nat
  score : Nat
  linkUp : Bool
  idleCount : Nat
  /-- R116: the time left of the 1 µs watch; none once a loss is declared, until a character is recognised. -/
  watch : Option Nat
  reception : Reception
  control : List Control
  sending : Symbol
  data : Vector (List QueueEntry) 4
  gq : List QueueEntry
  mq : List QueueEntry
  attempt : Option Attempt
  intervals : Vector (Option Nat) 4
  partnerHold : Option Nat
  /-- HOLDING, with what its re-send timer has left (R103, R104; log 14). -/
  ownHold : Option Nat
  /-- R7: the buffers of the frames admitted on this port and not yet decided, oldest first. -/
  awaiting : List BufIx
  counters : PortCounters
  deriving DecidableEq, Repr

/-- A port after either reset (R124, R117, R115, R109, R70, R92): LISTEN for the bring-up port, DISABLED for the others. The
watch is DESIGN CHOICE (log 20), and so is that the restart act cuts a control symbol already begun (log 31). -/
def PortSt.reset (bringup : Bool) (reception : Reception) : PortSt where
  state := if bringup then .listen else .disabled
  returnState := .listen
  recoveryTally := 0
  score := 0
  linkUp := false
  idleCount := 0
  watch := if bringup then some 1 else none
  reception := reception
  control := []
  sending := if bringup then .idleMark else .silent
  data := Vector.replicate 4 []
  gq := []
  mq := []
  attempt := none
  intervals := Vector.replicate 4 none
  partnerHold := none
  ownHold := none
  awaiting := []
  counters := PortCounters.reset

/-! ## Buffers, calls, management and events -/

inductive Origin where
  | port (p : Port)
  | gateway
  deriving DecidableEq, Repr

/-- A buffer (R92). `image` is the header image as received. -/
structure Buffer where
  holds : Nat
  origin : Origin
  image : List Byte
  payload : List Byte
  arrivalTime : Count
  deriving DecidableEq, Repr

/-- A free buffer at reset; the contents of a free buffer are not read by any block (R92), and the values here are DESIGN
CHOICE (log 2). -/
def Buffer.reset : Buffer := ⟨0, .gateway, [], [], 0⟩

inductive CallState where
  | free | queued | waiting
  deriving DecidableEq, Repr

/-- A call record (R47). -/
structure CallRecord where
  state : CallState
  gen : BitVec 8
  reqPort : Port
  reqStation : Station
  reqTag : Tag
  reqRing : RingNo
  addrStation : Station
  addrSvc : Svc
  tgtPort : Port
  tgtStation : Station
  tgtSvc : Svc
  carriedRing : RingNo
  via : SvcIx
  deadline : Count
  deriving DecidableEq, Repr

/-- R47. -/
def CallRecord.reset : CallRecord := ⟨.free, 0, 0, 0, 0, 0, 0, 0, 0, 0, 0, 0, 0, 0⟩

/-- The call table: the records and the ordered free list (R47, R50). -/
structure CallTable where
  records : Vector CallRecord 128
  freeList : List CallIx
  deriving DecidableEq, Repr

/-- R47, R50. -/
def CallTable.reset : CallTable := ⟨Vector.replicate 128 CallRecord.reset, List.finRange 128⟩

/-- A claim handed to the call table and not yet taken: the tag claims of a port's scheduler (R60, R61, R64) and the port down
claim of a port that left service (R64). -/
inductive Claim where
  | delivered (p : Port) (tag : Tag)
  | undeliverable (p : Port) (tag : Tag) (abort : Bool)
  | targetPortDown (p : Port) (tag : Tag)
  | portDown (p : Port)
  deriving DecidableEq, Repr

/-- What one block has handed another that has not yet been taken (log 8, 10). -/
structure Wires where
  claims : List Claim
  withdraws : List (Port × Tag)
  /-- R167: the flags whose notice attempt is still to be made, in the order of their settings. -/
  triggers : List Flag
  deriving DecidableEq, Repr

/-- An entry of the management input queue (R144). -/
structure MgmtEntry where
  port : Port
  buffer : BufIx
  deriving DecidableEq, Repr

/-- RESTART pending (R160): clear; set, with the RESTART's arrival port, until the report about its reply; set with the report
come, so that the restart act is due (R175, R176). -/
inductive Restart where
  | clear
  | awaiting (p : Port)
  | reported (p : Port)
  deriving DecidableEq, Repr

structure Mgmt where
  queue : List MgmtEntry
  restart : Restart
  deriving DecidableEq, Repr

/-- The last-refusal capture (R45, R166). -/
structure Capture where
  port : Port
  source : Station
  destination : Station
  service : Svc
  kind : Kind
  status : Status
  detail : Half
  deriving DecidableEq, Repr

/-- R166. -/
def Capture.reset : Capture := ⟨0, 255, 255, 0, .query, .ok, 65535⟩

/-- The gateway counters of R170. -/
structure GatewayCounters where
  forwarded : Count
  discarded : Count
  refused : Count
  callsOpened : Count
  callsTimedOut : Count
  mirrors : Count
  deriving DecidableEq, Repr

def GatewayCounters.reset : GatewayCounters := ⟨0, 0, 0, 0, 0, 0⟩

/-- The event unit (chapter Events, Notices, Counters and the Time Base); `flags` is the event set in the layout of R179. -/
structure Events where
  flags : BitVec 64
  armed : Bool
  capture : Capture
  counters : GatewayCounters
  deriving DecidableEq, Repr

/-- R163, R166, R169, R170. -/
def Events.reset : Events := ⟨0, true, Capture.reset, GatewayCounters.reset⟩

/-- The state of the gateway. `pending` is the model's own: the commands that wait, first in, first out (log 21). -/
structure State where
  pending : List Instr
  resetAsserted : Bool
  timeBase : Count
  tables : Tables
  ports : Vector PortSt 4
  pool : Vector Buffer 256
  calls : CallTable
  wires : Wires
  mgmt : Mgmt
  events : Events
  deriving DecidableEq, Repr

/-- Every item at its reset value (section 10.3), for a GSN, a bring-up port and what each receiver is left in. -/
def State.atReset (gsn : Station) (bringup : Port) (reception : Port → Reception) (pending : List Instr) : State where
  pending := pending
  resetAsserted := false
  timeBase := 0
  tables := Tables.reset gsn bringup
  ports := ⟨#[PortSt.reset (bringup == 0) (reception 0), PortSt.reset (bringup == 1) (reception 1),
    PortSt.reset (bringup == 2) (reception 2), PortSt.reset (bringup == 3) (reception 3)], rfl⟩
  pool := Vector.replicate 256 Buffer.reset
  calls := CallTable.reset
  wires := ⟨[], [], []⟩
  mgmt := ⟨[], .clear⟩
  events := Events.reset

/-- The machine right after the release of the reset pin, with the straps of Config (DESIGN CHOICE, log 1; R173). -/
def State.reset : State :=
  State.atReset (Config.gsnBase + Config.resetStn.setWidth 8) Config.resetBringup (fun _ => .none) []

end Sys2Proof.Machine
end

