-- ==== Sys2Proof/Machine/Operands.lean ====
section
/-! DEFINITION. The encoded formats: bytes of fields, headers, the check word, entry images and status codes (chapter Encoded
Formats, and R110). -/

namespace Sys2Proof.Machine

/-! ## Bytes -/

/-- The more significant byte of a two-byte field. -/
def hiByte (x : Half) : Byte := x.extractLsb' 8 8

/-- The less significant byte of a two-byte field. -/
def loByte (x : Half) : Byte := x.extractLsb' 0 8

/-- A two-byte field from its bytes, most significant first. -/
def ofBytes (h l : Byte) : Half := h ++ l

/-- A two-byte field as sent: most significant byte first (00_scope.md, Conventions). -/
def be16 (x : Half) : List Byte := [hiByte x, loByte x]

def be32 (x : BitVec 32) : List Byte := be16 (x.extractLsb' 16 16) ++ be16 (x.extractLsb' 0 16)

def be64 (x : BitVec 64) : List Byte := be32 (x.extractLsb' 32 32) ++ be32 (x.extractLsb' 0 32)

/-- A service number in two bytes, its upper four bits sent 0. -/
def svcHalf (x : Svc) : Half := x.setWidth 16

/-- Byte `i` of a list of bytes. -/
def byteAt (bytes : List Byte) (i : Nat) : Byte := bytes.getD i 0

/-- The two-byte field at byte `i`. -/
def halfAt (bytes : List Byte) (i : Nat) : Half := ofBytes (byteAt bytes i) (byteAt bytes (i + 1))

/-- The eight-byte number at byte `i` (R179). -/
def wideAt (bytes : List Byte) (i : Nat) : BitVec 64 :=
  halfAt bytes i ++ halfAt bytes (i + 2) ++ halfAt bytes (i + 4) ++ halfAt bytes (i + 6)

def boolByte (b : Bool) : Byte := if b then 1 else 0

/-- A number that fits a byte, as a byte. -/
def natByte (n : Nat) : Byte := BitVec.ofNat 8 n

def natHalf (n : Nat) : Half := BitVec.ofNat 16 n

def portByte (p : Port) : Byte := natByte p.val

def byteFin4 (b : Byte) : Fin 4 := Fin.ofNat 4 b.toNat

/-! ## Codes -/

/-- R178. -/
def Kind.code : Kind → BitVec 2
  | .query => 0
  | .command => 1
  | .reply => 2
  | .notice => 3

def Kind.ofCode (c : BitVec 2) : Kind :=
  if c = 0 then .query else if c = 1 then .command else if c = 2 then .reply else .notice

def Kind.isRequest : Kind → Bool
  | .query | .command => true
  | .reply | .notice => false

/-- Section 11.5. -/
def Status.code : Status → Byte
  | .ok => 0
  | .rule => 1
  | .short => 2
  | .noService => 3
  | .notPresent => 4
  | .access => 5
  | .ring => 6
  | .tooLong => 7
  | .portDown => 8
  | .noRecord => 9
  | .queueFull => 10
  | .timeout => 11
  | .undeliverable => 12
  | .cancelled => 13
  | .badOp => 32
  | .badTable => 33
  | .badIndex => 34
  | .badValue => 35
  | .overlap => 36
  | .badTarget => 37
  | .wrongState => 38
  | .selfPort => 39
  | .badLength => 40

/-- Section 11.4. -/
def PortState.code : PortState → Byte
  | .disabled => 0
  | .config => 1
  | .listen => 2
  | .forward => 3
  | .isolated => 4

/-- Section 11.4. -/
def CallState.code : CallState → Byte
  | .free => 0
  | .queued => 1
  | .waiting => 2

/-! ## The header (R178) -/

def Header.encode (h : Header) : List Byte :=
  [h.kind.code ++ h.ring ++ h.urgency ++ (0 : BitVec 1), h.dst, h.src]
    ++ be16 (svcHalf h.svc) ++ [h.length] ++ be16 h.tag ++ be16 h.label ++ [h.status]

/-- The header read from the first 11 bytes of a frame; the ignored bits are not read. -/
def Header.decode (bytes : List Byte) : Header where
  kind := Kind.ofCode ((byteAt bytes 0).extractLsb' 6 2)
  ring := (byteAt bytes 0).extractLsb' 4 2
  urgency := (byteAt bytes 0).extractLsb' 1 3
  dst := byteAt bytes 1
  src := byteAt bytes 2
  svc := (halfAt bytes 3).setWidth 12
  length := byteAt bytes 5
  tag := halfAt bytes 6
  label := halfAt bytes 8
  status := byteAt bytes 10

/-! ## The check word (R110) -/

/-- One bit of the computation. -/
def checkBit (r : Half) (b : Bool) : Half :=
  if b != r.msb then (r <<< 1) ^^^ 4129 else r <<< 1

/-- The bits of a byte, most significant first. -/
def bitsOf (b : Byte) : List Bool :=
  [b.getLsbD 7, b.getLsbD 6, b.getLsbD 5, b.getLsbD 4, b.getLsbD 3, b.getLsbD 2, b.getLsbD 1, b.getLsbD 0]

def checkByte (r : Half) (b : Byte) : Half := (bitsOf b).foldl checkBit r

/-- The check word of a frame's header and payload. -/
def checkWord (bytes : List Byte) : Half := bytes.foldl checkByte 65535

/-- A frame as sent: header, payload, check word (R178, R110). -/
def frameBytes (h : Header) (payload : List Byte) : List Byte :=
  h.encode ++ payload ++ be16 (checkWord (h.encode ++ payload))

/-- R111: the tests on a FRAME whose `count` data characters came and whose first 61 are `chars`. -/
def goodFrame (chars : List Byte) (count : Nat) : Bool :=
  13 ≤ count
    && (byteAt chars 5).toNat ≤ Config.maxPayload
    && count == (byteAt chars 5).toNat + 13
    && checkWord (chars.take (count - 2)) == halfAt chars (count - 2)

/-- R13: the payload sent with an outgoing length: the arrived bytes up to the smaller length, then zeros. -/
def fitPayload (payload : List Byte) (len : Nat) : List Byte :=
  payload.take len ++ List.replicate (len - payload.length) 0

/-- The 8-byte mirror trailer (R20, R179). -/
def Trailer.encode (t : Trailer) : List Byte :=
  [portByte t.arrivalPort, natByte t.rule.val, t.outcome, 0] ++ be32 t.arrivalTime

/-! ## Entry images (R180) -/

/-- KINDS as the sum of QUERY 1, COMMAND 2, REPLY 4, NOTICE 8. -/
def KindSet.code (k : KindSet) : Byte :=
  (0 : BitVec 4) ++ BitVec.ofBool k.notice ++ BitVec.ofBool k.reply ++ BitVec.ofBool k.command
    ++ BitVec.ofBool k.query

def KindSet.ofCode (b : Byte) : KindSet :=
  ⟨b.getLsbD 0, b.getLsbD 1, b.getLsbD 2, b.getLsbD 3⟩

def KindSet.has (k : KindSet) : Kind → Bool
  | .query => k.query
  | .command => k.command
  | .reply => k.reply
  | .notice => k.notice

def KindSet.isEmpty (k : KindSet) : Bool := !(k.query || k.command || k.reply || k.notice)

def Verdict.code : Verdict → Byte
  | .forward => 0
  | .discard => 1
  | .refuse => 2

def Verdict.ofCode (b : Byte) : Verdict := if b = 0 then .forward else if b = 1 then .discard else .refuse

def ServiceKind.code : ServiceKind → Byte
  | .direct => 0
  | .shared => 1
  | .gate => 2

def ServiceKind.ofCode (b : Byte) : ServiceKind := if b = 0 then .direct else if b = 1 then .shared else .gate

def Arb.code : Arb → Byte
  | .urgency => 0
  | .queue => 1

def Arb.ofCode (b : Byte) : Arb := if b = 0 then .urgency else .queue

def Recovery.code : Recovery → Byte
  | .auto => 0
  | .park => 1
  | .manual => 2

def Recovery.ofCode (b : Byte) : Recovery := if b = 0 then .auto else if b = 1 then .park else .manual

def RuleEntry.image (e : RuleEntry) : List Byte :=
  [boolByte e.valid, e.src, e.srcMask, e.dst, e.dstMask] ++ be16 (svcHalf e.svc) ++ be16 (svcHalf e.svcMask)
    ++ [e.kinds.code, e.maxRing.setWidth 8, e.verdict.code, e.minLen, e.fixLen.getD 255, boolByte e.cmdCap,
        boolByte e.noticeCap, portByte e.qclass, (e.urgency.map (·.setWidth 8)).getD 255, boolByte e.labelKeep]
    ++ be16 e.label ++ [boolByte e.mirror, boolByte e.oneShot]

/-- The checks of R2 and R180 on a rule entry image. -/
def ruleImageOk (img : List Byte) : Bool :=
  byteAt img 0 ≤ 1 && halfAt img 5 ≤ 4095 && halfAt img 7 ≤ 4095 && byteAt img 9 ≤ 15 && byteAt img 10 ≤ 3
    && byteAt img 11 ≤ 2 && byteAt img 12 ≤ 48 && (byteAt img 13 ≤ 48 || byteAt img 13 == 255)
    && byteAt img 14 ≤ 1 && byteAt img 15 ≤ 1 && byteAt img 16 ≤ 3 && (byteAt img 17 ≤ 7 || byteAt img 17 == 255)
    && byteAt img 18 ≤ 1 && byteAt img 21 ≤ 1 && byteAt img 22 ≤ 1
    && (byteAt img 0 == 0 || byteAt img 9 != 0)

/-- The rule entry an image holds, or none where R2 refuses it BAD_VALUE. -/
def RuleEntry.ofImage (img : List Byte) : Option RuleEntry :=
  if ruleImageOk img then
    some {
      valid := byteAt img 0 == 1
      src := byteAt img 1
      srcMask := byteAt img 2
      dst := byteAt img 3
      dstMask := byteAt img 4
      svc := (halfAt img 5).setWidth 12
      svcMask := (halfAt img 7).setWidth 12
      kinds := KindSet.ofCode (byteAt img 9)
      maxRing := (byteAt img 10).setWidth 2
      verdict := Verdict.ofCode (byteAt img 11)
      minLen := byteAt img 12
      fixLen := if byteAt img 13 = 255 then none else some (byteAt img 13)
      cmdCap := byteAt img 14 == 1
      noticeCap := byteAt img 15 == 1
      qclass := byteFin4 (byteAt img 16)
      urgency := if byteAt img 17 = 255 then none else some ((byteAt img 17).setWidth 3)
      labelKeep := byteAt img 18 == 1
      label := halfAt img 19
      mirror := byteAt img 21 == 1
      oneShot := byteAt img 22 == 1 }
  else none

def ServiceEntry.image (e : ServiceEntry) : List Byte :=
  [boolByte e.valid, e.station] ++ be16 (svcHalf e.svcLo) ++ be16 (svcHalf e.svcHi)
    ++ [e.kind.code, e.ring.setWidth 8, boolByte e.present, portByte e.port, e.limit] ++ be16 e.timeout
    ++ [natByte e.target.val] ++ be16 (svcHalf e.entrySvc) ++ [e.words, boolByte e.cmdOk, boolByte e.noticeOk]

/-- The range checks of R24 on a service entry image. -/
def serviceImageOk (img : List Byte) : Bool :=
  byteAt img 0 ≤ 1 && byteAt img 1 ≤ 254 && halfAt img 2 ≤ 4095 && halfAt img 4 ≤ 4095
    && halfAt img 2 ≤ halfAt img 4 && byteAt img 6 ≤ 2 && byteAt img 7 ≤ 3 && byteAt img 8 ≤ 1 && byteAt img 9 ≤ 3
    && byteAt img 10 ≤ 48 && halfAt img 11 != 0 && byteAt img 13 ≤ 127 && halfAt img 14 ≤ 4095 && byteAt img 16 ≤ 12
    && byteAt img 17 ≤ 1 && byteAt img 18 ≤ 1

/-- The service entry an image holds, or none where R24 refuses it BAD_VALUE. -/
def ServiceEntry.ofImage (img : List Byte) : Option ServiceEntry :=
  if serviceImageOk img then
    some {
      valid := byteAt img 0 == 1
      station := byteAt img 1
      svcLo := (halfAt img 2).setWidth 12
      svcHi := (halfAt img 4).setWidth 12
      kind := ServiceKind.ofCode (byteAt img 6)
      ring := (byteAt img 7).setWidth 2
      present := byteAt img 8 == 1
      cmdOk := byteAt img 17 == 1
      noticeOk := byteAt img 18 == 1
      port := byteFin4 (byteAt img 9)
      limit := byteAt img 10
      timeout := halfAt img 11
      target := Fin.ofNat 128 (byteAt img 13).toNat
      entrySvc := (halfAt img 14).setWidth 12
      words := byteAt img 16 }
  else none

def PortRec.image (r : PortRec) : List Byte :=
  [r.portRing.setWidth 8, boolByte r.mgmtAdmit, r.ruleStart] ++ be16 r.ruleCount
    ++ [r.quota, r.holdMark, r.resumeMark, r.holdTime, r.ackWindow, r.retry, r.arb.code, r.recovery.code]

/-- Check 1 of R141: every field lies in its range of R140. -/
def portImageOk (img : List Byte) : Bool :=
  byteAt img 0 ≤ 3 && byteAt img 1 ≤ 1 && halfAt img 3 ≤ 256 && 1 ≤ byteAt img 5 && byteAt img 5 ≤ 240
    && byteAt img 6 ≤ 240 && byteAt img 7 ≤ 239 && 1 ≤ byteAt img 8 && 1 ≤ byteAt img 9 && byteAt img 10 ≤ 15
    && byteAt img 11 ≤ 1 && byteAt img 12 ≤ 2

/-- The PORT record an image holds, or none where check 1 of R141 refuses it. -/
def PortRec.ofImage (img : List Byte) : Option PortRec :=
  if portImageOk img then
    some {
      portRing := (byteAt img 0).setWidth 2
      mgmtAdmit := byteAt img 1 == 1
      ruleStart := byteAt img 2
      ruleCount := halfAt img 3
      quota := byteAt img 5
      holdMark := byteAt img 6
      resumeMark := byteAt img 7
      holdTime := byteAt img 8
      ackWindow := byteAt img 9
      retry := byteAt img 10
      arb := Arb.ofCode (byteAt img 11)
      recovery := Recovery.ofCode (byteAt img 12) }
  else none

def QueueRec.image (r : QueueRec) : List Byte := [r.depth] ++ be16 r.interval

/-- The QUEUE record an image holds, or none where R71 refuses it BAD_VALUE. -/
def QueueRec.ofImage (img : List Byte) : Option QueueRec :=
  if 1 ≤ byteAt img 0 ∧ byteAt img 0 ≤ 64 ∧ halfAt img 1 ≤ 4095 then some ⟨byteAt img 0, halfAt img 1⟩ else none

def Settings.image (r : Settings) : List Byte :=
  [r.gsn, boolByte r.strict, r.reserve, r.mgmtReadRing.setWidth 8, r.mgmtWriteRing.setWidth 8, r.reportStation,
    portByte r.reportPort] ++ be16 (svcHalf r.reportSvc) ++ be64 r.noticeEn
    ++ [(r.monitorPort.map portByte).getD 255, r.monitorStation] ++ be16 (svcHalf r.monitorSvc)
    ++ [r.mDepth, r.lowMark, r.highMark]

/-- The 51 places of the event set that hold a flag (R179): bits 0 to 51 without bit 15. -/
def flagPlaces : BitVec 64 := 0x000FFFFFFFFF7FFF

/-- R161, first check: every field lies in its range and NOTICE_EN names only flags of the event set. -/
def settingsImageOk (img : List Byte) : Bool :=
  byteAt img 0 ≤ 254 && byteAt img 1 ≤ 1 && 1 ≤ byteAt img 2 && byteAt img 2 ≤ 16 && byteAt img 3 ≤ 3
    && byteAt img 4 ≤ 3 && byteAt img 6 ≤ 3 && halfAt img 7 ≤ 4095 && (wideAt img 9 &&& ~~~flagPlaces) == 0
    && (byteAt img 17 ≤ 3 || byteAt img 17 == 255) && halfAt img 19 ≤ 4095 && 1 ≤ byteAt img 21 && byteAt img 21 ≤ 32
    && 1 ≤ byteAt img 23 && byteAt img 23 ≤ 128

/-- The GATEWAY record an image holds, or none where the first check of R161 refuses it. -/
def Settings.ofImage (img : List Byte) : Option Settings :=
  if settingsImageOk img then
    some {
      gsn := byteAt img 0
      strict := byteAt img 1 == 1
      reserve := byteAt img 2
      mgmtReadRing := (byteAt img 3).setWidth 2
      mgmtWriteRing := (byteAt img 4).setWidth 2
      reportStation := byteAt img 5
      reportPort := byteFin4 (byteAt img 6)
      reportSvc := (halfAt img 7).setWidth 12
      noticeEn := wideAt img 9
      monitorPort := if byteAt img 17 = 255 then none else some (byteFin4 (byteAt img 17))
      monitorStation := byteAt img 18
      monitorSvc := (halfAt img 19).setWidth 12
      mDepth := byteAt img 21
      lowMark := byteAt img 22
      highMark := byteAt img 23 }
  else none

end Sys2Proof.Machine
end

