-- ==== Sys2Proof/Machine/Flags.lean ====
section
/-! DEFINITION. The event unit's flags, level conditions and counters, and the views and updates of State they need (chapter
Events, Notices, Counters and the Time Base). -/

namespace Sys2Proof.Machine

/-! ## Views of the state -/

namespace State

def settings (s : State) : Settings := s.tables.settings

def port (s : State) (p : Port) : PortSt := look s.ports p

def portRec (s : State) (p : Port) : PortRec := look s.tables.portRecs p

def rule (s : State) (i : RuleIx) : RuleEntry := look s.tables.rules i

def service (s : State) (i : SvcIx) : ServiceEntry := look s.tables.services i

def buffer (s : State) (b : BufIx) : Buffer := look s.pool b

def record (s : State) (i : CallIx) : CallRecord := look s.calls.records i

/-- R151: the QUEUE record of port p and data queue Dq stands at index p × 4 + q. -/
def queueRec (s : State) (p : Port) (q : DataQ) : QueueRec :=
  look s.tables.queueRecs ⟨p.val * 4 + q.val, by omega⟩

/-- The buffers whose hold count is 0 (R93). -/
def freeCount (s : State) : Nat := s.pool.toList.countP (fun b => b.holds == 0)

/-- The buffers of port p's origin that are in use (00_scope.md, Terms; R95). -/
def occupancy (s : State) (p : Port) : Nat :=
  s.pool.toList.countP (fun b => b.holds != 0 && b.origin == .port p)

/-- The held buffers of origin GATEWAY (R95). -/
def gatewayHeld (s : State) : Nat :=
  s.pool.toList.countP (fun b => b.holds != 0 && b.origin == .gateway)

/-- The call records in use (R48). -/
def recordsInUse (s : State) : Nat := s.calls.records.toList.countP (fun r => r.state != .free)

/-! ## Updates -/

def modPort (s : State) (p : Port) (f : PortSt → PortSt) : State :=
  { s with ports := put s.ports p (f (look s.ports p)) }

def modBuffer (s : State) (b : BufIx) (f : Buffer → Buffer) : State :=
  { s with pool := put s.pool b (f (look s.pool b)) }

def modCount (s : State) (f : GatewayCounters → GatewayCounters) : State :=
  { s with events := { s.events with counters := f s.events.counters } }

def modPortCount (s : State) (p : Port) (f : PortCounters → PortCounters) : State :=
  s.modPort p (fun x => { x with counters := f x.counters })

def addClaim (s : State) (c : Claim) : State :=
  { s with wires := { s.wires with claims := s.wires.claims ++ [c] } }

def addWithdraw (s : State) (p : Port) (tag : Tag) : State :=
  { s with wires := { s.wires with withdraws := s.wires.withdraws ++ [(p, tag)] } }

end State

/-- "In service": LISTEN or FORWARD (00_scope.md, Terms). -/
def PortState.inService : PortState → Bool
  | .listen | .forward => true
  | .disabled | .config | .isolated => false

/-! ## The event set (R163, R179) -/

def eventBit : EventFlag → Nat
  | .noRule => 0
  | .short => 1
  | .notPresent => 2
  | .accessRefused => 3
  | .ringRefused => 4
  | .callTimeout => 5
  | .undeliverable => 6
  | .staleReply => 7
  | .replyMismatch => 8
  | .replyLost => 9
  | .gwReplyLost => 10
  | .admitRefused => 11
  | .mgmtRefused => 12
  | .mirrorLost => 13
  | .portRecovered => 14

/-- The lower bit of a level condition's pair: its RISE flag. -/
def levelBit : Level → Nat
  | .linkUp p => 16 + 8 * p.val
  | .warn p => 18 + 8 * p.val
  | .isolated p => 20 + 8 * p.val
  | .holding p => 22 + 8 * p.val
  | .poolLow => 48
  | .callsHigh => 50

def flagBit : Flag → Nat
  | .event e => eventBit e
  | .rise l => levelBit l
  | .fall l => levelBit l + 1

def flagMask (f : Flag) : BitVec 64 := 1#64 <<< flagBit f

namespace State

/-- Whether a flag of the event set is set. -/
def flagSet (s : State) (f : Flag) : Bool := s.events.flags.getLsbD (flagBit f)

/-- Whether a flag is a member of NOTICE_EN (R167). -/
def flagEnabled (s : State) (f : Flag) : Bool := s.settings.noticeEn.getLsbD (flagBit f)

def setFlag (s : State) (f : Flag) : State :=
  { s with events := { s.events with flags := s.events.flags ||| flagMask f } }

/-- R163, R165, R167: the act that meets an event sets its flag. The setting of an enabled flag from clear is a notice trigger,
whose attempt waits for NOTICE_ATTEMPT (log 10). -/
def raise (s : State) (f : Flag) : State :=
  if s.flagEnabled f && !s.flagSet f then
    { s.setFlag f with wires := { s.wires with triggers := s.wires.triggers ++ [f] } }
  else s.setFlag f

/-! ## Level conditions (R164) -/

/-- Whether a level condition holds, judged from its source. -/
def levelHolds (s : State) : Level → Bool
  | .linkUp p => (s.port p).linkUp
  | .warn p => Config.warnScore ≤ (s.port p).score
  | .isolated p => (s.port p).state == .isolated
  | .holding p => (s.port p).ownHold.isSome
  | .poolLow => s.freeCount ≤ s.settings.lowMark.toNat
  | .callsHigh => s.settings.highMark.toNat ≤ s.recordsInUse

/-- R164: a judgement of a condition that held before as `was` says. -/
def judge (s : State) (l : Level) (was : Bool) : State :=
  if was = s.levelHolds l then s
  else if was then s.raise (.fall l)
  else s.raise (.rise l)

/-- The four conditions of a port judged after a change, against the state before it. -/
def judgePort (s : State) (p : Port) (before : State) : State :=
  (((s.judge (.linkUp p) (before.levelHolds (.linkUp p))).judge (.warn p) (before.levelHolds (.warn p))).judge
    (.isolated p) (before.levelHolds (.isolated p))).judge (.holding p) (before.levelHolds (.holding p))

end State

end Sys2Proof.Machine
end

