-- ==== Sys2Proof/Machine/Ops.lean ====
section
/-! DEFINITION. The operations every block shares: buffers and their holders, own HOLD, queues and deliveries (chapters The Buffer
Pool and Admission, and Egress Queues and Transmission Scheduling), and the passing of time. -/

namespace Sys2Proof.Machine

namespace State

/-! ## Time (R171) -/

end State

/-- A running timer after `d` microseconds; at 0 it is due and waits for its command (log 4). -/
def timerAfter (d : Nat) (t : Option Nat) : Option Nat := t.map (· - d)

def attemptAfter (d : Nat) (a : Attempt) : Attempt :=
  match a.phase with
  | .window left => { a with phase := .window (left - d) }
  | .waiting => a
  | .sending => a

/-- A port's timers after `d` microseconds. -/
def portAfter (d : Nat) (x : PortSt) : PortSt :=
  { x with
    watch := timerAfter d x.watch
    attempt := x.attempt.map (attemptAfter d)
    intervals := x.intervals.map (timerAfter d)
    partnerHold := timerAfter d x.partnerHold
    ownHold := timerAfter d x.ownHold }

namespace State

/-- `d` microseconds pass: the time base advances across its wrap and every running timer runs on (R171). -/
def elapse (s : State) (d : Nat) : State :=
  { s with timeBase := s.timeBase + BitVec.ofNat 32 d, ports := s.ports.map (portAfter d) }

/-! ## Own HOLD (R103 to R106) -/

/-- A control symbol is placed at the back of the pending ones (R108). -/
def pushControl (s : State) (p : Port) (c : Control) : State :=
  s.modPort p (fun x => { x with control := x.control ++ [c] })

/-- R103: the port enters HOLDING: one HOLD with HOLD_TIME, and the re-send timer for HOLD_TIME × 25 µs. -/
def startHold (s : State) (p : Port) : State :=
  ((s.pushControl p (.hold (s.portRec p).holdTime)).modPort p
    (fun x => { x with ownHold := some ((s.portRec p).holdTime.toNat * 25) })).judge
      (.holding p) (s.levelHolds (.holding p))

/-- R105: the port leaves HOLDING: one HOLD with duration 0, and the re-send timer stops. -/
def endHold (s : State) (p : Port) : State :=
  ((s.pushControl p (.hold 0)).modPort p (fun x => { x with ownHold := none })).judge
    (.holding p) (s.levelHolds (.holding p))

/-- The judgement of R103 and R105 after an admission or a release; none is made out of service (R106). -/
def judgeHold (s : State) (p : Port) : State :=
  if (s.port p).state.inService then
    match (s.port p).ownHold with
    | none =>
      if (s.portRec p).holdMark ≠ 0 ∧ (s.portRec p).holdMark.toNat ≤ s.occupancy p then s.startHold p else s
    | some _ =>
      if (s.portRec p).holdMark = 0 ∨ s.occupancy p ≤ (s.portRec p).resumeMark.toNat then s.endHold p else s
  else s

/-! ## Buffers (R92 to R95) -/

/-- A change of one buffer, with the judgement of POOL_LOW that each buffer taken or freed brings (R164, R165). -/
def changeBuffer (s : State) (b : BufIx) (f : Buffer → Buffer) : State :=
  (s.modBuffer b f).judge .poolLow (s.levelHolds .poolLow)

/-- Any free buffer; the lowest one (log 17). -/
def firstFree (s : State) : Option BufIx :=
  (List.finRange 256).find? (fun b => (s.buffer b).holds == 0)

/-- An added holder raises the hold count by 1 (R93). -/
def hold (s : State) (b : BufIx) : State := s.modBuffer b (fun x => { x with holds := x.holds + 1 })

/-- The release of one holder (R94). -/
def release (s : State) (b : BufIx) : State :=
  if (s.buffer b).holds = 0 then s
  else if (s.buffer b).holds = 1 then
    match (s.buffer b).origin with
    | .port p => (s.changeBuffer b (fun x => { x with holds := 0 })).judgeHold p
    | .gateway => s.changeBuffer b (fun x => { x with holds := 0 })
  else s.modBuffer b (fun x => { x with holds := x.holds - 1 })

def holdOpt (s : State) : Option BufIx → State
  | none => s
  | some b => s.hold b

def releaseOpt (s : State) : Option BufIx → State
  | none => s
  | some b => s.release b

end State

/-! ## Queues (R70 to R74) -/

/-- The entries of a queue of a port, head first. -/
def PortSt.queue (x : PortSt) : QueueId → List QueueEntry
  | .data q => look x.data q
  | .g => x.gq
  | .m => x.mq

def PortSt.setQueue (x : PortSt) (q : QueueId) (es : List QueueEntry) : PortSt :=
  match q with
  | .data d => { x with data := put x.data d es }
  | .g => { x with gq := es }
  | .m => { x with mq := es }

/-- Every entry of a port's queues, in the order R88 empties them. -/
def PortSt.allEntries (x : PortSt) : List QueueEntry :=
  look x.data 0 ++ look x.data 1 ++ look x.data 2 ++ look x.data 3 ++ x.gq ++ x.mq

/-- A new entry: attempts 0, NO_RETRY none, IN_TRANSMISSION 0 (R72). -/
def newEntry (kind : EntryKind) (h : Header) (buffer : Option BufIx) (tag : Option Tag) (oneShot : Bool)
    (trailer : Option Trailer) : QueueEntry where
  kind := kind
  header := h
  buffer := buffer
  callTag := tag
  attempts := 0
  oneShot := oneShot
  noRetry := .none
  inTransmission := false
  trailer := trailer
  restartReply := false

namespace State

def queue (s : State) (p : Port) (q : QueueId) : List QueueEntry := (s.port p).queue q

def setQueue (s : State) (p : Port) (q : QueueId) (es : List QueueEntry) : State :=
  s.modPort p (fun x => x.setQueue q es)

/-- R73: whether a queue of a port accepts a delivery. -/
def accepts (s : State) (p : Port) : QueueId → Bool
  | .data q => (s.port p).state == .forward && (look (s.port p).data q).length < (s.queueRec p q).depth.toNat
  | .g => (s.port p).state.inService && (s.port p).gq.length < Config.gDepth
  | .m => s.settings.monitorPort == some p && (s.port p).state == .forward
      && (s.port p).mq.length < s.settings.mDepth.toNat

/-- R73: a delivery. An accepted one appends the entry and adds its hold to the buffer it names; a refused one (none) leaves
everything as it was. -/
def deliver (s : State) (p : Port) (q : QueueId) (e : QueueEntry) : Option State :=
  if s.accepts p q then some ((s.setQueue p q (s.queue p q ++ [e])).holdOpt e.buffer) else none

/-- R83, R160: the management unit is told when the entry that carries a RESTART reply leaves G. -/
def reportRestart (s : State) : State :=
  match s.mgmt.restart with
  | .awaiting p => { s with mgmt := { s.mgmt with restart := .reported p } }
  | .clear => s
  | .reported _ => s

/-- What every removal of an entry brings besides the queue itself: the report of a RESTART reply and the release of the
entry's hold (R74, R83). -/
def entryLeft (s : State) (e : QueueEntry) : State :=
  (if e.restartReply then s.reportRestart else s).releaseOpt e.buffer

/-- A gateway-made REPLY or notice offered to a G queue; where it is refused, GW_REPLY_LOST is set (R43, R67, R148). -/
def offerReply (s : State) (p : Port) (e : QueueEntry) : State :=
  match s.deliver p .g e with
  | some t => t
  | none => s.raise (.event .gwReplyLost)

/-- R84: one entry removed by ABORT QUEUE. -/
def abortEntry (p : Port) (s : State) (e : QueueEntry) : State :=
  let s := (s.modPortCount p (fun c => { c with txDropped := c.txDropped + 1 })).entryLeft e
  match e.callTag with
  | some t => s.addClaim (.undeliverable p t true)
  | none => s

/-- R84: ABORT QUEUE on one queue of a port, which R87 also uses for a former monitor port's M. -/
def abortQueue (s : State) (p : Port) (q : QueueId) : State :=
  let es := s.queue p q
  ((es.filter (fun e => !e.inTransmission)).foldl (abortEntry p)
    (s.setQueue p q ((es.filter (fun e => e.inTransmission)).map (fun e => { e with noRetry := .abort }))))

end State

/-- The frame's larger ring of R21. -/
def ringMax (a b : RingNo) : RingNo := if a ≤ b then b else a

namespace State

/-- R21: the effective ring of a frame on its arrival port. -/
def effectiveRing (s : State) (p : Port) (h : Header) : RingNo := ringMax h.ring (s.portRec p).portRing

end State

end Sys2Proof.Machine
end

