-- ==== Sys2Proof/Machine/Calls.lean ====
section
/-! DEFINITION. The call table: records, free list, call replies and the claims that reach a record (chapter Call Records and the
Reply Path), with the meanings of the claim steps, the expiry and the withdraw. -/

namespace Sys2Proof.Machine

def CallRecord.inUse (r : CallRecord) : Bool := r.state != .free

/-- R49: GEN × 256 + index. -/
def recordTag (gen : BitVec 8) (i : CallIx) : Tag := ofBytes gen (natByte i.val)

/-- R49: the record index of a tag, or none where its low byte exceeds 127. -/
def tagIndex (t : Tag) : Option CallIx :=
  if h : (loByte t).toNat < 128 then some ⟨(loByte t).toNat, h⟩ else none

/-- A microsecond count `d` long in the past of another, counted across the wrap: the deadline has been reached (R171). -/
def reached (now deadline : Count) : Bool := (now - deadline).toNat < 2147483648

/-- The microseconds until a deadline; 0 once the time base has reached it. -/
def untilDeadline (now deadline : Count) : Nat :=
  if reached now deadline then 0 else (deadline - now).toNat

/-- R66: the call reply's header. -/
def callReplyHeader (r : CallRecord) (st : Status) : Header where
  kind := .reply
  ring := r.reqRing
  urgency := 7
  dst := r.reqStation
  src := r.addrStation
  svc := r.addrSvc
  length := 0
  tag := r.reqTag
  label := natHalf r.via.val
  status := st.code

namespace State

def setRecord (s : State) (i : CallIx) (r : CallRecord) : State :=
  { s with calls := { s.calls with records := put s.calls.records i r } }

/-- R53: the record a tag claim acts on: in use, with the tag's generation. -/
def claimed (s : State) (t : Tag) : Option CallIx :=
  match tagIndex t with
  | none => none
  | some i => if (s.record i).inUse && (s.record i).gen == hiByte t then some i else none

/-- R51: record `i`, the front of the free list, is opened with the fields of R40. -/
def openRecord (s : State) (i : CallIx) (r : CallRecord) : State :=
  let t := s.setRecord i { r with state := .queued, gen := (s.record i).gen }
  (({ t with calls := { t.calls with freeList := t.calls.freeList.tail } } : State).modCount
    (fun c => { c with callsOpened := c.callsOpened + 1 })).judge .callsHigh (s.levelHolds .callsHigh)

/-- R52: a claim that ends a call frees its record. -/
def freeRecord (s : State) (i : CallIx) : State :=
  if (s.record i).inUse then
    let t := s.setRecord i { s.record i with state := .free, gen := (s.record i).gen + 1 }
    ({ t with calls := { t.calls with freeList := t.calls.freeList ++ [i] } } : State).judge .callsHigh
      (s.levelHolds .callsHigh)
  else s

/-- R52: the withdraw that goes with freeing a record that is QUEUED. -/
def withdrawIfQueued (s : State) (i : CallIx) : State :=
  if (s.record i).state = .queued then
    s.addWithdraw (s.record i).tgtPort (recordTag (s.record i).gen i)
  else s

/-- R67: a call reply for the call a record held. -/
def sendCallReply (s : State) (r : CallRecord) (st : Status) : State :=
  s.offerReply r.reqPort (newEntry .gateway (callReplyHeader r st) none none false none)

/-! ## Claims -/

/-- R60. -/
def takeDelivered (s : State) (t : Tag) : State :=
  match s.claimed t with
  | none => s
  | some i =>
    if (s.record i).state = .queued then s.setRecord i { s.record i with state := .waiting } else s

/-- R61. -/
def takeUndeliverable (s : State) (t : Tag) (abort : Bool) : State :=
  match s.claimed t with
  | none => s
  | some i =>
    if (s.record i).state = .queued then
      if abort then (s.freeRecord i).sendCallReply (s.record i) .cancelled
      else ((s.freeRecord i).sendCallReply (s.record i) .undeliverable).raise (.event .undeliverable)
    else s

/-- R64: what the table gives a record that is reached by port p's leaving service. -/
def portDownRecord (p : Port) (s : State) (i : CallIx) : State :=
  let r := s.record i
  if r.inUse && r.tgtPort == p && r.reqPort != p then (s.freeRecord i).sendCallReply r .portDown
  else if r.inUse && r.reqPort == p && r.tgtPort != p then (s.withdrawIfQueued i).freeRecord i
  else if r.inUse && r.reqPort == p && r.tgtPort == p then s.freeRecord i
  else s

/-- R64: a target port down tag claim of the flush of port p, for the record its tag names. -/
def takeTargetPortDown (s : State) (p : Port) (t : Tag) : State :=
  match s.claimed t with
  | none => s
  | some i => s.portDownRecord p i

/-- R64: the port down claim, in rising order of record index. -/
def takePortDown (s : State) (p : Port) : State := (List.finRange 128).foldl (portDownRecord p) s

def takeClaim (s : State) : Claim → State
  | .delivered _ t => s.takeDelivered t
  | .undeliverable _ t a => s.takeUndeliverable t a
  | .targetPortDown p t => s.takeTargetPortDown p t
  | .portDown p => s.takePortDown p

end State

/-! ## Claims on their way (log 8) -/

def Claim.isDelivered (p : Port) : Claim → Bool
  | .delivered q _ => q == p
  | _ => false

def Claim.isUndeliverable (p : Port) : Claim → Bool
  | .undeliverable q _ _ => q == p
  | _ => false

def Claim.isTargetPortDown (p : Port) : Claim → Bool
  | .targetPortDown q _ => q == p
  | _ => false

def Claim.isPortDown (p : Port) : Claim → Bool
  | .portDown q => q == p
  | _ => false

/-- A demand of port p's leaving service (R128). -/
def Claim.isLeaving (p : Port) (c : Claim) : Bool := c.isTargetPortDown p || c.isPortDown p

namespace State

/-- The oldest waiting claim of one sort is taken; where none waits, nothing happens. -/
def takeOldest (s : State) (sort : Claim → Bool) : State :=
  match s.wires.claims.find? sort with
  | none => s
  | some c => ({ s with wires := { s.wires with claims := s.wires.claims.erase c } } : State).takeClaim c

/-- R128: each demand of p's leaving service is taken before any later transition of p, in the order handed where the sender
has not taken them before (log 9). -/
def settleDemands (s : State) (p : Port) : State :=
  (s.wires.claims.filter (Claim.isLeaving p)).foldl takeClaim
    { s with wires := { s.wires with claims := s.wires.claims.filter (fun c => !c.isLeaving p) } }

/-! ## Withdraw (R85) -/

end State

/-- The mark a withdraw sets on an entry in transmission: ABORT is kept. -/
def markWithdraw (e : QueueEntry) : QueueEntry :=
  if e.noRetry = .abort then e else { e with noRetry := .withdraw }

namespace State

/-- R85 for one data queue: the waiting entries that carry the tag are removed and the one in transmission is marked. -/
def withdrawFrom (p : Port) (tag : Tag) (s : State) (q : DataQ) : State :=
  let es := s.queue p (.data q)
  (es.filter (fun e => e.callTag == some tag && !e.inTransmission)).foldl entryLeft
    (s.setQueue p (.data q)
      ((es.filter (fun e => !(e.callTag == some tag && !e.inTransmission))).map
        (fun e => if e.callTag = some tag then markWithdraw e else e)))

/-- R85: the withdraw as the scheduler of port p takes it. -/
def takeWithdraw (s : State) (p : Port) (tag : Tag) : State :=
  (List.finRange 4).foldl (withdrawFrom p tag) s

/-- A withdraw on its way is taken; where none waits for this port and tag, nothing happens. -/
def withdrawStep (s : State) (p : Port) (tag : Tag) : State :=
  if (p, tag) ∈ s.wires.withdraws then
    ({ s with wires := { s.wires with withdraws := s.wires.withdraws.erase (p, tag) } } : State).takeWithdraw p tag
  else s

/-! ## Expiry and cancel -/

/-- R62: the expiry of a record in use, once the time base has reached its DEADLINE. -/
def expire (s : State) (i : CallIx) : State :=
  ((((s.withdrawIfQueued i).freeRecord i).sendCallReply (s.record i) .timeout).raise (.event .callTimeout)).modCount
    (fun c => { c with callsTimedOut := c.callsTimedOut + 1 })

/-- R62: the time base reaches the DEADLINE of record i (log 4) and the record expires. -/
def callExpiry (s : State) (i : CallIx) : State :=
  if (s.record i).inUse then (s.elapse (untilDeadline s.timeBase (s.record i).deadline)).expire i else s

end State

/-! ## The meanings -/

/-- R173: while the reset input is asserted nothing is taken. -/
def running (f : State → State) (s : State) : Host.Outcome State Fault Refusal :=
  if s.resetAsserted then .next s else .next (f s)

/-- DELIVERED_CLAIM (R60): the oldest delivered claim of port p's scheduler. -/
def execDeliveredClaim (p : Port) (s : State) : Host.Outcome State Fault Refusal :=
  running (fun s => s.takeOldest (Claim.isDelivered p)) s

/-- UNDELIVERABLE_CLAIM (R61): the oldest undeliverable claim of port p's scheduler. -/
def execUndeliverableClaim (p : Port) (s : State) : Host.Outcome State Fault Refusal :=
  running (fun s => s.takeOldest (Claim.isUndeliverable p)) s

/-- TARGET_PORT_DOWN_CLAIM (R64): the oldest tag claim of port p's flush. -/
def execTargetPortDownClaim (p : Port) (s : State) : Host.Outcome State Fault Refusal :=
  running (fun s => s.takeOldest (Claim.isTargetPortDown p)) s

/-- PORT_DOWN_CLAIM (R64): the port down claim of port p. -/
def execPortDownClaim (p : Port) (s : State) : Host.Outcome State Fault Refusal :=
  running (fun s => s.takeOldest (Claim.isPortDown p)) s

/-- CALL_EXPIRY (R62). -/
def execCallExpiry (i : CallIx) (s : State) : Host.Outcome State Fault Refusal :=
  running (fun s => s.callExpiry i) s

/-- WITHDRAW (R85). -/
def execWithdraw (p : Port) (tag : Tag) (s : State) : Host.Outcome State Fault Refusal :=
  running (fun s => s.withdrawStep p tag) s

end Sys2Proof.Machine
end

