-- ==== Sys2Proof/Machine/Ports.lean ====
section
/-! DEFINITION. Port states: leaving and entering service, the freeze, isolation and recovery, and the error score (chapter Port
States, and R120 to R122). -/

namespace Sys2Proof.Machine

/-- What a transmitter sends once its port is out of service (R109): a control symbol already begun is finished, a FRAME is
abandoned; then idle marks, or nothing when DISABLED. -/
def symbolOutOfService (target : PortState) : Symbol → Symbol
  | .control c => .control c
  | .silent | .idleMark | .frame _ => if target = .disabled then .silent else .idleMark

/-- A FRAME being received as its port changes service: it is passed over (R129, R132). -/
def receptionClosed : Reception → Reception
  | .none => .none
  | .taking _ _ => .passingOver
  | .passingOver => .passingOver

/-- R135: the return state is the state left. -/
def stateLeft (x : PortSt) : ReturnState :=
  match x.state with
  | .listen => .listen
  | .forward => .forward
  | .disabled | .config | .isolated => x.returnState

/-- A port's own items as it enters DISABLED, CONFIG or ISOLATED (R88, R106, R109, R130). -/
def portLeft (target : PortState) (x : PortSt) : PortSt :=
  { x with
    state := target
    returnState := if target = .isolated then stateLeft x else x.returnState
    recoveryTally := 0
    score := if target = .isolated then Config.scoreCap else 0
    linkUp := if target = .disabled then false else x.linkUp
    idleCount := if target = .disabled then 0 else x.idleCount
    watch := if target = .disabled then none else if x.state = .disabled then some 1 else x.watch
    reception := if target = .disabled then .none else receptionClosed x.reception
    control := []
    sending := symbolOutOfService target x.sending
    data := Vector.replicate 4 []
    gq := []
    mq := []
    attempt := none
    intervals := Vector.replicate 4 none
    partnerHold := none
    ownHold := none }

/-- A port's own items as it enters LISTEN or FORWARD from CONFIG or ISOLATED (R132, R137, R139). -/
def portEntered (target : PortState) (x : PortSt) : PortSt :=
  { x with
    state := target
    recoveryTally := 0
    score := 0
    reception := receptionClosed x.reception }

namespace State

/-- R88: an entry removed by the flush of port p: its hold is released, and a request entry gives a target port down claim. -/
def flushEntry (p : Port) (s : State) (e : QueueEntry) : State :=
  match e.callTag with
  | some t => (s.entryLeft e).addClaim (.targetPortDown p t)
  | none => s.entryLeft e

/-- R129: an entry of the management input queue removed with its port. -/
def dropMgmtEntry (s : State) (e : MgmtEntry) : State := s.release e.buffer

/-- R129: the entries of port p leave the management input queue. -/
def dropMgmt (s : State) (p : Port) : State :=
  (s.mgmt.queue.filter (fun e => e.port == p)).foldl dropMgmtEntry
    { s with mgmt := { s.mgmt with queue := s.mgmt.queue.filter (fun e => e.port != p) } }

/-- R128: port p enters DISABLED, CONFIG or ISOLATED, with the demands that the steps of the table hold within the act: the
flush, the drop from the management input queue and the end of own HOLDING; the claims go on their way to the call table. -/
def leaveService (s : State) (p : Port) (target : PortState) : State :=
  let s := s.settleDemands p
  let t := (s.modPort p (portLeft target)).judgePort p s
  ((((s.port p).allEntries.foldl (flushEntry p) t).addClaim (.portDown p))).dropMgmt p

/-- R132: port p enters LISTEN or FORWARD from CONFIG or ISOLATED, and is judged for own HOLD at once. -/
def enterService (s : State) (p : Port) (target : PortState) : State :=
  let s := s.settleDemands p
  ((s.modPort p (portEntered target)).judgePort p s).judgeHold p

/-- R133, R134: LISTEN from FORWARD and FORWARD from LISTEN keep the port's work. -/
def switchService (s : State) (p : Port) (target : PortState) : State :=
  s.modPort p (fun x => { x with state := target })

/-! ## The error score (R120 to R122) -/

/-- An increase, which at 255 is one act with the entry into ISOLATED (R121). The causes arise in service only. -/
def raiseScore (s : State) (p : Port) (n : Nat) : State :=
  if (s.port p).state.inService then
    if Config.scoreCap ≤ (s.port p).score + n then s.leaveService p .isolated
    else (s.modPort p (fun x => { x with score := x.score + n })).judge (.warn p) (s.levelHolds (.warn p))
  else s

/-- A decrease by 1, not below 0. The causes arise in service only. -/
def lowerScore (s : State) (p : Port) : State :=
  if (s.port p).state.inService then
    (s.modPort p (fun x => { x with score := x.score - 1 })).judge (.warn p) (s.levelHolds (.warn p))
  else s

/-! ## Recovery (R136 to R138) -/

def recoverTo (r : Recovery) (x : PortSt) : Option PortState :=
  match r, x.returnState with
  | .auto, .listen => some .listen
  | .auto, .forward => some .forward
  | .park, _ => some .listen
  | .manual, _ => none

/-- R136, R137: an idle run handed to an ISOLATED port. -/
def recoveryRun (s : State) (p : Port) : State :=
  if (s.port p).state = .isolated then
    let t := s.modPort p (fun x => { x with recoveryTally := min Config.recoveryRuns (x.recoveryTally + 1) })
    if (t.port p).recoveryTally = Config.recoveryRuns then
      match recoverTo (t.portRec p).recovery (t.port p) with
      | some target => (t.enterService p target).raise (.event .portRecovered)
      | none => t
    else t
  else s

/-- R136: a loss of signal or an unrecognised character sets the tally of an ISOLATED port to 0. -/
def clearTally (s : State) (p : Port) : State :=
  if (s.port p).state = .isolated then s.modPort p (fun x => { x with recoveryTally := 0 }) else s

/-! ## SET PORT STATE (R126) -/

/-- The transition of check 5 of R126, by the present state and the target. -/
def transition (s : State) (p : Port) (target : PortState) : State :=
  if target.inService then
    if (s.port p).state.inService then s.switchService p target else s.enterService p target
  else s.leaveService p target

end State

/-- R125: whether SET PORT STATE may make the transition; a disabled port must pass through CONFIG. -/
def transitionAllowed (from_ target : PortState) : Bool :=
  match from_ with
  | .disabled => target == .config
  | .config | .listen | .forward | .isolated => true

end Sys2Proof.Machine
end

