-- ==== Sys2Proof/Machine/Link.lean ====
section
/-! DEFINITION. The line monitor, the frame receiver and admission: what arrives on a port (chapters The Segment Link and The Buffer
Pool and Admission). -/

namespace Sys2Proof.Machine

/-- Whether a character that comes inside a FRAME breaks it (R112). -/
def breaksFrame : Character → Bool
  | .data _ => false
  | .endChar => false
  | .idleMark | .start | .control => true

def Reception.isTaking : Reception → Bool
  | .taking _ _ => true
  | .none | .passingOver => false

namespace State

/-- R114: the port's receiver takes FRAMEs, answers and HOLDs: in LISTEN or FORWARD with the link UP. -/
def receives (s : State) (p : Port) : Bool := (s.port p).state.inService && (s.port p).linkUp

/-! ## The line monitor (R115 to R117) -/

/-- R115: the idle run is handed to the link-up state and, for an ISOLATED port, to the recovery tally; the count returns to 0. -/
def handIdleRun (s : State) (p : Port) : State :=
  ((s.modPort p (fun x => { x with idleCount := 0, linkUp := true })).judge (.linkUp p)
    (s.levelHolds (.linkUp p))).recoveryRun p

/-- R115: the last idle mark of an idle run at the line monitor. The 1 µs watch starts again (R116). -/
def lineIdleRun (s : State) (p : Port) : State := (s.modPort p (fun x => { x with watch := some 1 })).handIdleRun p

/-- R115: a recognised character at the line monitor. The 1 µs watch starts again (R116). The idle mark that brings the count to 16
hands the idle run in the same act. -/
def lineCharacter (s : State) (p : Port) (idle : Bool) : State :=
  if (s.port p).state = .disabled then s
  else if idle = true ∧ Config.idleRunLength ≤ (s.port p).idleCount + 1 then s.lineIdleRun p
  else s.modPort p (fun x => { x with idleCount := if idle then x.idleCount + 1 else 0, watch := some 1 })

/-- R115, R136: an unrecognised character at the line monitor. -/
def lineUnrecognised (s : State) (p : Port) : State :=
  if (s.port p).state = .disabled then s
  else (s.modPort p (fun x => { x with idleCount := 0 })).clearTally p

/-- R116, R136: a loss of signal at the line monitor, after what the watch has left of its 1 µs (log 4). -/
def lineLoss (s : State) (p : Port) : State :=
  ((s.modPort p (fun x => { x with idleCount := 0, watch := none, linkUp := false })).judge (.linkUp p)
    (s.levelHolds (.linkUp p))).clearTally p

/-! ## Bad and broken frames (R111, R112) -/

/-- R111: a bad frame is answered NAK CHECK; RX_CHECK rises by 1 and the score by 4. -/
def badFrame (s : State) (p : Port) : State :=
  ((s.pushControl p (.answer (.nak .check))).modPortCount p
    (fun c => { c with rxCheck := c.rxCheck + 1 })).raiseScore p Config.badFrameRaise

def setReception (s : State) (p : Port) (r : Reception) : State := s.modPort p (fun x => { x with reception := r })

/-- R112: the FRAME in reception, if one is being collected, is broken. -/
def breakReception (s : State) (p : Port) : State :=
  if (s.port p).reception.isTaking && s.receives p then (s.setReception p .none).badFrame p
  else s.setReception p .none

/-- What the frame receiver makes of a character (R111, R112, R132): a start character begins a FRAME, which is passed over
where the port does not receive; a data character is collected; an interruption breaks a FRAME. The end character of a FRAME is
`arriveFrame`'s; one outside any FRAME begins and ends nothing. -/
def receiveCharacter (s : State) (p : Port) (c : Character) : State :=
  match c with
  | .start =>
    let t := s.breakReception p
    t.setReception p (if t.receives p then .taking [] 0 else .passingOver)
  | .data b =>
    match (s.port p).reception with
    | .taking kept n => s.setReception p (.taking ((kept ++ [b]).take Config.keptCharacters) (n + 1))
    | .none => s
    | .passingOver => s
  | .endChar => s
  | .idleMark => s.breakReception p
  | .control => s.breakReception p

/-! ## Admission (R96 to R98) -/

/-- R98: a frame refused by admission, for lack of readiness. -/
def nakBusy (s : State) (p : Port) : State :=
  (s.pushControl p (.answer (.nak .busy))).modPortCount p (fun c => { c with nakBusySent := c.nakBusySent + 1 })

/-- R98: a frame refused by admission, for lack of room. -/
def nakFull (s : State) (p : Port) : State :=
  (s.pushControl p (.answer (.nak .full))).modPortCount p (fun c => { c with nakFullSent := c.nakFullSent + 1 })

/-- R97: the admitted frame goes to the management input queue or to the decision unit. -/
def queueAdmitted (s : State) (p : Port) (b : BufIx) (mgmt : Bool) : State :=
  if mgmt then { s with mgmt := { s.mgmt with queue := s.mgmt.queue ++ [⟨p, b⟩] } }
  else s.modPort p (fun x => { x with awaiting := x.awaiting ++ [b] })

/-- R97: a frame admitted on port p. -/
def admitFrame (s : State) (p : Port) (b : BufIx) (image payload : List Byte) (mgmt : Bool) : State :=
  ((((((s.changeBuffer b (fun _ => ⟨1, .port p, image, payload, s.timeBase⟩)).pushControl p (.answer .ack)).modPortCount p
    (fun c => { c with rxGood := c.rxGood + 1 })).lowerScore p).queueAdmitted p b mgmt)).judgeHold p

/-- R96: the checks of admission, in order. -/
def admission (s : State) (p : Port) (image payload : List Byte) : State :=
  let mgmt := (Header.decode image).dst == s.settings.gsn
  if s.mgmt.restart ≠ .clear then s.nakBusy p
  else if (s.port p).state = .listen ∧ mgmt = false then s.nakBusy p
  else if mgmt = true ∧ Config.inputQueueEntries ≤ s.mgmt.queue.length then s.nakBusy p
  else if s.freeCount ≤ s.settings.reserve.toNat then (s.nakFull p).raise (.event .admitRefused)
  else if (s.portRec p).quota.toNat ≤ s.occupancy p then s.nakFull p
  else
    match s.firstFree with
    | none => s
    | some b => s.admitFrame p b image payload mgmt

/-- R111, R113: the end character of a FRAME whose data characters are `chars` and whose count is `n`. -/
def frameEnd (s : State) (p : Port) (chars : List Byte) (n : Nat) : State :=
  if goodFrame chars n then
    s.admission p (chars.take Config.headerBytes) ((chars.drop Config.headerBytes).take (n - 13))
  else s.badFrame p

/-- The data characters of a FRAME that ends: those collected one by one, then those told with its end, up to 61 (R111). -/
def collected (r : Reception) (chars : List Byte) : List Byte × Nat :=
  match r with
  | .taking kept n => ((kept ++ chars).take Config.keptCharacters, n + chars.length)
  | .none => (chars.take Config.keptCharacters, chars.length)
  | .passingOver => (chars.take Config.keptCharacters, chars.length)

/-- FRAME_RECEIVED: the end character of a FRAME arrives. A FRAME passed over ends with it (R129, R132). -/
def arriveFrame (s : State) (p : Port) (chars : List Byte) : State :=
  let u := s.lineCharacter p false
  let r := (u.port p).reception
  let t := u.setReception p .none
  if t.receives p && r != .passingOver then t.frameEnd p (collected r chars).1 (collected r chars).2 else t

/-! ## What arrives (R111, R112, R115, R116) -/

/-- A recognised character arrives: the frame receiver and the line monitor each take it. The end character of a FRAME under way
ends it as FRAME_RECEIVED does (R111, R132; log 6). -/
def arriveCharacter (s : State) (p : Port) (c : Character) : State :=
  if (s.port p).state = .disabled then s
  else if c = .endChar ∧ (s.port p).reception ≠ .none then s.arriveFrame p []
  else (s.receiveCharacter p c).lineCharacter p (c == .idleMark)

/-- An unrecognised character arrives (R112, R115, R136). -/
def arriveUnrecognised (s : State) (p : Port) : State :=
  if (s.port p).state = .disabled then s else (s.breakReception p).lineUnrecognised p

/-- R116: a loss of signal is declared where a watch runs; the time it has left passes (log 4). -/
def arriveLoss (s : State) (p : Port) : State :=
  if (s.port p).state = .disabled then s
  else
    match (s.port p).watch with
    | none => s
    | some left => ((s.elapse left).breakReception p).lineLoss p

/-- R115: the idle run: the idle marks it still lacks arrive (logs 6 and 27), and the run is handed. -/
def arriveIdleRun (s : State) (p : Port) : State :=
  if (s.port p).state = .disabled then s else (s.breakReception p).lineIdleRun p

/-- R112: a FRAME is broken, and what broke it is then taken for what it is. A FRAME whose start was not told by a command of its
own is one the port received from its start (log 6). -/
def arriveBroken (s : State) (p : Port) (i : Interruption) : State :=
  let v := s.lineCharacter p false
  let r := (v.port p).reception
  let u := v.setReception p .none
  let t := if u.receives p && r != .passingOver then u.badFrame p else u
  match i with
  | .character c => t.arriveCharacter p c
  | .unrecognised => t.arriveUnrecognised p
  | .lossOfSignal => t.arriveLoss p

end State

/-! ## The meanings -/

/-- FRAME_RECEIVED (R111, R113, R96 to R98). -/
def execFrameReceived (p : Port) (chars : List Byte) (s : State) : Host.Outcome State Fault Refusal :=
  running (fun s => s.arriveFrame p chars) s

/-- BROKEN_FRAME (R112); what does not break a FRAME makes no such step (WellFormed). -/
def execBrokenFrame (p : Port) (i : Interruption) (s : State) : Host.Outcome State Fault Refusal :=
  running (fun s => if (match i with | .character c => breaksFrame c | .unrecognised => true | .lossOfSignal => true)
    then s.arriveBroken p i else s) s

/-- IDLE_RUN (R115, R117, R136, R137). -/
def execIdleRun (p : Port) (s : State) : Host.Outcome State Fault Refusal :=
  running (fun s => s.arriveIdleRun p) s

/-- LOSS_OF_SIGNAL (R116, R136). -/
def execLossOfSignal (p : Port) (s : State) : Host.Outcome State Fault Refusal :=
  running (fun s => s.arriveLoss p) s

/-- UNRECOGNISED_CHARACTER (R115, R136). -/
def execUnrecognisedCharacter (p : Port) (s : State) : Host.Outcome State Fault Refusal :=
  running (fun s => s.arriveUnrecognised p) s

/-- CHARACTER_RECOGNISED (R115, R116; the end character of a FRAME: R111, R132). -/
def execCharacterRecognised (p : Port) (c : Character) (s : State) : Host.Outcome State Fault Refusal :=
  running (fun s => s.arriveCharacter p c) s

end Sys2Proof.Machine
end

