-- ==== Sys2Proof/Machine/Transmit.lean ====
section
/-! DEFINITION. The transmitter and the egress scheduler: choices, attempts, completions, partner HOLD and timers (chapters The
Segment Link, and Egress Queues and Transmission Scheduling). -/

namespace Sys2Proof.Machine

/-- A data queue head's claim on the next attempt under ARB URGENCY: its URGENCY, and the queue it heads. -/
def betterOf (best : Option (QueueId × BitVec 3)) (q : QueueId) (u : BitVec 3) : Option (QueueId × BitVec 3) :=
  match best with
  | none => some (q, u)
  | some (_, v) => if v < u then some (q, u) else best

/-- D0 to D3 in order, and M as queue 4 (R76, R77). -/
def arbitrationOrder : List QueueId := [.data 0, .data 1, .data 2, .data 3, .m]

/-- R82: whether a failed entry is dropped, its attempts as raised by R81. -/
def dropsAfterFailure (e : QueueEntry) (attempts : Nat) (retry : Byte) : Bool :=
  e.oneShot || e.noRetry != .none || retry.toNat < attempts

namespace State

/-! ## Choosing the next frame (R75 to R77) -/

/-- R175 to R177: the report about the RESTART reply has come, so that the restart act is next and no FRAME is begun or ended
before it (log 30). -/
def restartDue (s : State) : Bool :=
  match s.mgmt.restart with
  | .reported _ => true
  | .clear => false
  | .awaiting _ => false

/-- R75, R177: the conditions under which a port may start an attempt. -/
def mayStart (s : State) (p : Port) : Bool :=
  !s.restartDue && (s.port p).attempt.isNone && (s.port p).state.inService && (s.port p).linkUp && (s.port p).partnerHold.isNone

/-- R75: the candidates by port state. -/
def isCandidate (s : State) (p : Port) : QueueId → Bool
  | .data q => (s.port p).state == .forward && (look (s.port p).data q) != [] && (look (s.port p).intervals q).isNone
  | .g => (s.port p).gq != []
  | .m => (s.port p).state == .forward && (s.port p).mq != []

/-- R76: between the candidates' heads, the highest URGENCY; between equal ones, the lower queue. -/
def bestUrgency (s : State) (p : Port) : Option QueueId :=
  (arbitrationOrder.foldl (fun best q =>
    if s.isCandidate p q then
      match s.queue p q with
      | [] => best
      | e :: _ => betterOf best q e.header.urgency
    else best) none).map Prod.fst

/-- R76, R77: the queue whose head is chosen. -/
def choose (s : State) (p : Port) : Option QueueId :=
  if s.isCandidate p .g then some .g
  else
    match (s.portRec p).arb with
    | .urgency => s.bestUrgency p
    | .queue => arbitrationOrder.find? (s.isCandidate p)

/-- R79: the payload sent for an entry. -/
def sentPayload (s : State) (e : QueueEntry) : List Byte :=
  match e.buffer with
  | none => []
  | some b =>
    match e.kind with
    | .forwarded => fitPayload (s.buffer b).payload e.header.length.toNat
    | .gateway => (s.buffer b).payload
    | .mirror =>
      (s.buffer b).image ++ (e.trailer.map Trailer.encode).getD [] ++ (s.buffer b).payload.take Config.mirrorPayload

/-- R79: an attempt starts on the head of a queue. -/
def startAttempt (s : State) (p : Port) (q : QueueId) : State :=
  match s.queue p q with
  | [] => s
  | e :: es =>
    (s.setQueue p q ({ e with inTransmission := true } :: es)).modPort p
      (fun x => { x with attempt := some ⟨q, frameBytes e.header (s.sentPayload e), .waiting⟩ })

/-- ATTEMPT_START: when the port may start an attempt and a candidate exists, the choice is made and the attempt starts. -/
def attemptStart (s : State) (p : Port) : State :=
  if s.mayStart p then
    match s.choose p with
    | none => s
    | some q => s.startAttempt p q
  else s

/-! ## The transmitter (R108, R109, R119) -/

def setPhase (s : State) (p : Port) (a : Attempt) (ph : Phase) : State :=
  s.modPort p (fun x => { x with attempt := some { a with phase := ph } })

def setSending (s : State) (p : Port) (y : Symbol) : State := s.modPort p (fun x => { x with sending := y })

/-- FRAME_SENT: the end character of the attempt's FRAME has been sent and the ack window starts (R119). Where the FRAME has
not begun, the pending control symbols and then the FRAME are sent first (R108; log 6). -/
def frameSent (s : State) (p : Port) : State :=
  if s.restartDue then s
  else
    match (s.port p).attempt with
    | none => s
    | some a =>
      match a.phase with
      | .window _ => s
      | .sending => s.setPhase p a (.window (s.portRec p).ackWindow.toNat)
      | .waiting =>
        ((s.modPort p (fun x => { x with control := [] })).setSending p (.frame a.frame)).setPhase p a
          (.window (s.portRec p).ackWindow.toNat)

/-- R108, R177: the next symbol of a port in service. -/
def nextSymbol (s : State) (p : Port) : State :=
  match (s.port p).control with
  | c :: cs => (s.modPort p (fun x => { x with control := cs })).setSending p (.control c)
  | [] =>
    match (s.port p).attempt with
    | none => s.setSending p .idleMark
    | some a =>
      if a.phase = .waiting ∧ s.restartDue = false then (s.setSending p (.frame a.frame)).setPhase p a .sending
      else s.setSending p .idleMark

/-- Whether the attempt's FRAME is being sent. -/
def frameUnderWay (s : State) (p : Port) : Bool :=
  match (s.port p).attempt with
  | none => false
  | some a => a.phase == .sending

/-- What follows a symbol that has ended (R108, R109). -/
def symbolAfter (s : State) (p : Port) : State :=
  match (s.port p).state with
  | .disabled => s.setSending p .silent
  | .config => s.setSending p .idleMark
  | .isolated => s.setSending p .idleMark
  | .listen => s.nextSymbol p
  | .forward => s.nextSymbol p

/-- TRANSMITTER_SYMBOL_END: the transmitter finishes a symbol and chooses the next one (R108, R109). The end of an attempt's
FRAME starts its ack window, where FRAME_SENT has not been taken (log 6); once the restart act is due no FRAME ends (R176, R177). -/
def symbolEnd (s : State) (p : Port) : State :=
  if s.frameUnderWay p then
    if s.restartDue then s else (s.frameSent p).symbolAfter p
  else s.symbolAfter p

/-! ## Completions (R80 to R83) -/

/-- R119: an attempt waits for an answer: its ack window runs, and the receiver takes answers. -/
def awaitsAnswer (s : State) (p : Port) : Bool :=
  s.receives p &&
    (match (s.port p).attempt with
    | none => false
    | some a => (match a.phase with | .window _ => true | .waiting => false | .sending => false))

/-- R78: the interval timer of a data queue starts; an INTERVAL of 0 starts none. -/
def startInterval (s : State) (p : Port) : QueueId → State
  | .data q =>
    s.modPort p (fun x => { x with
      intervals := put x.intervals q
        (if (s.queueRec p q).interval = 0 then none else some ((s.queueRec p q).interval.toNat * 10)) })
  | .g => s
  | .m => s

def endAttempt (s : State) (p : Port) : State := s.modPort p (fun x => { x with attempt := none })

def claimFor (s : State) (e : QueueEntry) (c : Tag → Claim) : State :=
  match e.callTag with
  | none => s
  | some t => s.addClaim (c t)

/-- R80: the attempt in progress ends with an ACK. -/
def completeAck (s : State) (p : Port) : State :=
  match (s.port p).attempt with
  | none => s
  | some a =>
    match s.queue p a.queue with
    | [] => s.endAttempt p
    | e :: es =>
      (((((((s.endAttempt p).setQueue p a.queue es).entryLeft e).modPortCount p
        (fun c => { c with txOk := c.txOk + 1 })).claimFor e (.delivered p)).startInterval p a.queue)).lowerScore p

/-- R81 to R83: the attempt in progress ends without an ACK; the entry is kept or dropped, and a drop is reported. -/
def completeFailure (s : State) (p : Port) : State :=
  match (s.port p).attempt with
  | none => s
  | some a =>
    match s.queue p a.queue with
    | [] => s.endAttempt p
    | e :: es =>
      let t := (s.endAttempt p).modPortCount p (fun c => { c with txFail := c.txFail + 1 })
      if dropsAfterFailure e (e.attempts + 1) (s.portRec p).retry then
        (((t.setQueue p a.queue es).entryLeft e).modPortCount p
          (fun c => { c with txDropped := c.txDropped + 1 })).claimFor e
            (fun tag => .undeliverable p tag (e.noRetry == .abort))
      else t.setQueue p a.queue ({ e with inTransmission := false, attempts := e.attempts + 1 } :: es)

/-- R81: the failure with its effect on the error score, which is its last effect. -/
def failAttempt (s : State) (p : Port) (raises : Bool) : State :=
  if raises then (s.completeFailure p).raiseScore p Config.failureRaise else s.completeFailure p

/-- R81: the completions that raise the error score. -/
def nakRaises : NakReason → Bool
  | .check => true
  | .full => false
  | .busy => false

/-- ACK_RECEIVED: the second character of an ACK has come (R80, R114, R119); without an attempt that waits it is ignored (R90). -/
def ackReceived (s : State) (p : Port) : State :=
  let t := s.arriveCharacter p .control
  if t.awaitsAnswer p then t.completeAck p else t

/-- NAK_RECEIVED (R81, R114, R119, R90). -/
def nakReceived (s : State) (p : Port) (r : NakReason) : State :=
  let t := s.arriveCharacter p .control
  if t.awaitsAnswer p then t.failAttempt p (nakRaises r) else t

/-- STRAY_ANSWER: an answer that no attempt waits for is ignored by the scheduler (R90). -/
def strayAnswer (s : State) (p : Port) : State :=
  if s.awaitsAnswer p then s else s.arriveCharacter p .control

/-- ACK_WINDOW_EXPIRY: the window runs out (R119, R81), once the time it has left has passed (log 4). -/
def ackWindowExpiry (s : State) (p : Port) : State :=
  match (s.port p).attempt with
  | none => s
  | some a =>
    match a.phase with
    | .window left => (s.elapse left).failAttempt p true
    | .waiting => s
    | .sending => s

/-! ## Partner HOLD and the other timers (R86, R78, R104) -/

/-- HOLD_RECEIVED: a HOLD symbol received (R86, R114). -/
def holdReceived (s : State) (p : Port) (d : Byte) : State :=
  let t := s.arriveCharacter p .control
  if t.receives p then
    t.modPort p (fun x => { x with partnerHold := if d = 0 then none else some (d.toNat * 50) })
  else t

/-- PARTNER_HOLD_EXPIRY (R86; log 4). -/
def partnerHoldExpiry (s : State) (p : Port) : State :=
  match (s.port p).partnerHold with
  | none => s
  | some left => (s.elapse left).modPort p (fun x => { x with partnerHold := none })

/-- INTERVAL_TIMER_EXPIRY (R78; log 4). -/
def intervalExpiry (s : State) (p : Port) (q : DataQ) : State :=
  match look (s.port p).intervals q with
  | none => s
  | some left => (s.elapse left).modPort p (fun x => { x with intervals := put x.intervals q none })

/-- HOLD_RESEND_EXPIRY: one more HOLD with HOLD_TIME as it stands, and the timer again (R104; log 4). -/
def holdResendExpiry (s : State) (p : Port) : State :=
  match (s.port p).ownHold with
  | none => s
  | some left =>
    ((s.elapse left).pushControl p (.hold (s.portRec p).holdTime)).modPort p
      (fun x => { x with ownHold := some ((s.portRec p).holdTime.toNat * 25) })

end State

/-! ## The meanings -/

/-- ATTEMPT_START (R75 to R77, R79). -/
def execAttemptStart (p : Port) (s : State) : Host.Outcome State Fault Refusal :=
  running (fun s => s.attemptStart p) s

/-- TRANSMITTER_SYMBOL_END (R108, R109). -/
def execTransmitterSymbolEnd (p : Port) (s : State) : Host.Outcome State Fault Refusal :=
  running (fun s => s.symbolEnd p) s

/-- FRAME_SENT (R119). -/
def execFrameSent (p : Port) (s : State) : Host.Outcome State Fault Refusal :=
  running (fun s => s.frameSent p) s

/-- ACK_RECEIVED (R80). -/
def execAckReceived (p : Port) (s : State) : Host.Outcome State Fault Refusal :=
  running (fun s => s.ackReceived p) s

/-- NAK_RECEIVED (R81 to R83). -/
def execNakReceived (p : Port) (r : NakReason) (s : State) : Host.Outcome State Fault Refusal :=
  running (fun s => s.nakReceived p r) s

/-- ACK_WINDOW_EXPIRY (R119, R81 to R83). -/
def execAckWindowExpiry (p : Port) (s : State) : Host.Outcome State Fault Refusal :=
  running (fun s => s.ackWindowExpiry p) s

/-- STRAY_ANSWER (R90); an ACK and a NAK are ignored alike. -/
def execStrayAnswer (p : Port) (_a : Answer) (s : State) : Host.Outcome State Fault Refusal :=
  running (fun s => s.strayAnswer p) s

/-- HOLD_RECEIVED (R86). -/
def execHoldReceived (p : Port) (d : Byte) (s : State) : Host.Outcome State Fault Refusal :=
  running (fun s => s.holdReceived p d) s

/-- PARTNER_HOLD_EXPIRY (R86). -/
def execPartnerHoldExpiry (p : Port) (s : State) : Host.Outcome State Fault Refusal :=
  running (fun s => s.partnerHoldExpiry p) s

/-- INTERVAL_TIMER_EXPIRY (R78). -/
def execIntervalTimerExpiry (p : Port) (q : DataQ) (s : State) : Host.Outcome State Fault Refusal :=
  running (fun s => s.intervalExpiry p q) s

/-- HOLD_RESEND_EXPIRY (R104). -/
def execHoldResendExpiry (p : Port) (s : State) : Host.Outcome State Fault Refusal :=
  running (fun s => s.holdResendExpiry p) s

end Sys2Proof.Machine
end

