-- ==== Sys2Proof/Machine/Decide.lean ====
section
/-! DEFINITION. The decision unit: the rule stage, the service stage, refusals, forwarding, call matching and mirror copies
(chapters The Rule List; Rings, Services and Gates; Call Records and the Reply Path). What a decision would do is one
function without effects, which DECISION and PROBE both read. -/

namespace Sys2Proof.Machine

/-- How far a decision came (R159): the serving entry once step 4 has passed, the carried ring once step 7 has, the egress port
once step 9 has, the outgoing length once the rule stage has. -/
structure Progress where
  serving : Option SvcIx
  carried : Option RingNo
  egress : Option Port
  length : Option Nat
  deriving DecidableEq, Repr

/-- What a forwarded request or notice leaves with (R28 to R42). -/
structure Forwarding where
  addressed : SvcIx
  serving : SvcIx
  carried : RingNo
  egress : Port
  dst : Station
  svc : Svc
  length : Nat
  deriving DecidableEq, Repr

/-- The outcome of a decision before its effects. -/
inductive Settled where
  /-- R7, R162: discarded without a scan. -/
  | unscanned
  /-- R8. -/
  | noRule
  /-- R10, R11: discarded by the matched rule. -/
  | discard (r : RuleIx)
  /-- R12: a reply that fails the length filter. -/
  | shortReply (r : RuleIx)
  /-- R43, R44: a refusal at any step. -/
  | refusal (r : RuleIx) (st : Status) (detail : Half) (g : Progress)
  /-- R17: a reply that goes to call matching, with its outgoing length. -/
  | matching (r : RuleIx) (len : Nat)
  /-- R40, R41: a request or notice that is offered for primary delivery. -/
  | forward (r : RuleIx) (f : Forwarding)
  deriving DecidableEq, Repr

/-! ## The rule stage (R3 to R13) -/

/-- R3: the indices of a port's rule block, lowest first. -/
def blockIndices (r : PortRec) : List RuleIx :=
  (List.finRange 256).filter
    (fun i => r.ruleStart.toNat ≤ i.val && i.val < r.ruleStart.toNat + r.ruleCount.toNat)

/-- R5: an arrived frame matches a valid entry. -/
def ruleMatches (e : RuleEntry) (h : Header) (ring : RingNo) : Bool :=
  e.valid && (h.src &&& e.srcMask) == (e.src &&& e.srcMask) && (h.dst &&& e.dstMask) == (e.dst &&& e.dstMask)
    && (h.svc &&& e.svcMask) == (e.svc &&& e.svcMask) && e.kinds.has h.kind && decide (ring ≤ e.maxRing)

/-- R13. -/
def outgoingLength (e : RuleEntry) (arrived : Nat) : Nat := (e.fixLen.map (·.toNat)).getD arrived

/-- R15. -/
def outgoingUrgency (e : RuleEntry) (h : Header) : BitVec 3 := e.urgency.getD h.urgency

/-- R15. -/
def outgoingLabel (e : RuleEntry) (h : Header) : Half := if e.labelKeep then h.label else e.label

/-- The index of an entry as a refusal's detail. -/
def detailOf {n : Nat} (i : Fin n) : Half := natHalf i.val

namespace State

/-- R6: the first valid entry of the arrival port's block that the frame matches. -/
def scan (s : State) (p : Port) (h : Header) (ring : RingNo) : Option RuleIx :=
  (blockIndices (s.portRec p)).find? (fun i => ruleMatches (s.rule i) h ring)

/-! ## The service stage (R28 to R39) -/

/-- R29: the addressed entry. -/
def addressedEntry (s : State) (h : Header) : Option SvcIx :=
  (List.finRange 128).find? (fun i =>
    (s.service i).valid && (s.service i).station == h.dst && decide ((s.service i).svcLo ≤ h.svc)
      && decide (h.svc ≤ (s.service i).svcHi))

/-- R25, R30: what makes an entry a usable target of a gate. -/
def targetUsable (s : State) (gate : ServiceEntry) : Bool :=
  (s.service gate.target).valid && (s.service gate.target).kind != .gate
    && decide ((s.service gate.target).svcLo ≤ gate.entrySvc) && decide (gate.entrySvc ≤ (s.service gate.target).svcHi)

/-- The serving entry: the addressed entry, or a gate's target. -/
def servingEntry (s : State) (a : SvcIx) : SvcIx :=
  if (s.service a).kind = .gate then (s.service a).target else a

/-- R31: the entry found offline. -/
def offlineEntry (s : State) (a : SvcIx) : Option SvcIx :=
  if !(s.service a).present then some a
  else if !(s.service (s.servingEntry a)).present then some (s.servingEntry a)
  else none

/-- R32, R33: step 6. -/
def accessPermitted (s : State) (r : RuleEntry) (e : ServiceEntry) (kind : Kind) (ring : RingNo) : Bool :=
  match kind with
  | .query => true
  | .command => r.cmdCap && (e.cmdOk || (ring == 0 && !s.settings.strict))
  | .notice => e.kind != .gate && r.noticeCap && e.noticeOk
  | .reply => true

/-- R34, R35: step 7, the entry whose ring failed. -/
def ringFailure (s : State) (a : SvcIx) (ring : RingNo) : Option SvcIx :=
  match (s.service a).kind with
  | .direct => if ring ≤ (s.service a).ring then none else some a
  | .shared => none
  | .gate =>
    if ring ≤ (s.service a).ring then
      if (s.service (s.servingEntry a)).ring ≤ ring then none else some (s.servingEntry a)
    else some a

/-- R22: the carried ring by the kind of the addressed entry. -/
def carriedRing (s : State) (a : SvcIx) (ring : RingNo) : RingNo :=
  match (s.service a).kind with
  | .direct => ring
  | .shared => ringMax ring (s.service a).ring
  | .gate => (s.service (s.servingEntry a)).ring

/-- R36: the outgoing length after gate truncation. -/
def truncatedLength (s : State) (a : SvcIx) (len : Nat) : Nat :=
  if (s.service a).kind = .gate then min len ((s.service a).words.toNat * 4) else len

/-- R36, R42: what the addressed entry makes of the frame. -/
def forwardingOf (s : State) (a : SvcIx) (h : Header) (ring : RingNo) (len : Nat) : Forwarding where
  addressed := a
  serving := s.servingEntry a
  carried := s.carriedRing a ring
  egress := (s.service (s.servingEntry a)).port
  dst := if (s.service a).kind = .gate then (s.service (s.servingEntry a)).station else h.dst
  svc := if (s.service a).kind = .gate then (s.service a).entrySvc else h.svc
  length := s.truncatedLength a len

/-- Steps 8 to 11 of R28, for a frame that step 7 permits. -/
def lastSteps (s : State) (r : RuleIx) (h : Header) (f : Forwarding) : Settled :=
  if (s.service f.serving).limit.toNat < f.length then
    .refusal r .tooLong (detailOf f.serving) ⟨some f.serving, some f.carried, none, some f.length⟩
  else if (s.port f.egress).state ≠ .forward then
    .refusal r .portDown (detailOf f.serving) ⟨some f.serving, some f.carried, none, some f.length⟩
  else if h.kind.isRequest ∧ s.calls.freeList = [] then
    .refusal r .noRecord (detailOf f.addressed) ⟨some f.serving, some f.carried, some f.egress, some f.length⟩
  else .forward r f

/-- Steps 4 to 11 of R28, with the outgoing length of the rule stage. -/
def serviceStage (s : State) (r : RuleIx) (h : Header) (ring : RingNo) (len : Nat) : Settled :=
  match s.addressedEntry h with
  | none => .refusal r .noService Config.noDetail ⟨none, none, none, some len⟩
  | some a =>
    if (s.service a).kind = .gate ∧ s.targetUsable (s.service a) = false then
      .refusal r .noService (detailOf a) ⟨none, none, none, some len⟩
    else
      match s.offlineEntry a with
      | some x => .refusal r .notPresent (detailOf x) ⟨some (s.servingEntry a), none, none, some len⟩
      | none =>
        if s.accessPermitted (s.rule r) (s.service a) h.kind ring then
          match s.ringFailure a ring with
          | some x => .refusal r .ring (detailOf x) ⟨some (s.servingEntry a), none, none, some len⟩
          | none => s.lastSteps r h (s.forwardingOf a h ring len)
        else .refusal r .access (detailOf a) ⟨some (s.servingEntry a), none, none, some len⟩

/-- The rule stage after the scan, and what follows it (R9 to R13, R17). -/
def ruleStage (s : State) (r : RuleIx) (h : Header) (ring : RingNo) : Settled :=
  match (s.rule r).verdict with
  | .discard => .discard r
  | .refuse =>
    if h.kind = .reply then .discard r else .refusal r .rule (detailOf r) ⟨none, none, none, none⟩
  | .forward =>
    if h.length.toNat < (s.rule r).minLen.toNat then
      if h.kind = .reply then .shortReply r else .refusal r .short (detailOf r) ⟨none, none, none, none⟩
    else if h.kind = .reply then .matching r (outgoingLength (s.rule r) h.length.toNat)
    else s.serviceStage r h ring (outgoingLength (s.rule r) h.length.toNat)

/-- The outcome of a decision for a frame that arrived on port p (R7, R28, R162). -/
def judgeArrival (s : State) (p : Port) (h : Header) : Settled :=
  if (s.port p).state ≠ .forward ∨ h.dst = s.settings.gsn then .unscanned
  else
    match s.scan p h (s.effectiveRing p h) with
    | none => .noRule
    | some r => s.ruleStage r h (s.effectiveRing p h)

/-! ## Refusals (R43 to R46) -/

end State

/-- R46: the event flag a refusal's status names. -/
def refusalFlag : Status → Option EventFlag
  | .short => some .short
  | .notPresent => some .notPresent
  | .access => some .accessRefused
  | .ring => some .ringRefused
  | _ => none

/-- R43. -/
def refusalHeader (h : Header) (ring : RingNo) (st : Status) (detail : Half) : Header where
  kind := .reply
  ring := ring
  urgency := 7
  dst := h.src
  src := h.dst
  svc := h.svc
  length := 0
  tag := h.tag
  label := detail
  status := st.code

namespace State

def raiseOpt (s : State) : Option EventFlag → State
  | none => s
  | some e => s.raise (.event e)

def setCapture (s : State) (c : Capture) : State := { s with events := { s.events with capture := c } }

/-- The refusal procedure (R43 to R46): capture, counter, flag and, for a request, the refusal reply. -/
def refuse (s : State) (p : Port) (h : Header) (st : Status) (detail : Half) : State :=
  let t := ((s.setCapture ⟨p, h.src, h.dst, h.svc, h.kind, st, detail⟩).modCount
    (fun c => { c with refused := c.refused + 1 })).raiseOpt (refusalFlag st)
  if h.kind.isRequest then
    t.offerReply p (newEntry .gateway (refusalHeader h (s.effectiveRing p h) st detail) none none false none)
  else t

def discarded (s : State) : State := s.modCount (fun c => { c with discarded := c.discarded + 1 })

def forwarded (s : State) : State := s.modCount (fun c => { c with forwarded := c.forwarded + 1 })

end State

/-- The outcome status of every discard (R18). -/
def discardOutcome : Byte := 255

/-! ## Primary delivery (R40 to R42) -/

/-- R42. -/
def forwardedHeader (e : RuleEntry) (h : Header) (f : Forwarding) (tag : Tag) : Header where
  kind := h.kind
  ring := f.carried
  urgency := outgoingUrgency e h
  dst := f.dst
  src := h.src
  svc := f.svc
  length := natByte f.length
  tag := tag
  label := outgoingLabel e h
  status := 0

/-- R51: a TIMEOUT in milliseconds from the time base, across its wrap. -/
def deadlineAfter (now : Count) (timeout : Half) : Count := now + BitVec.ofNat 32 (timeout.toNat * 1000)

namespace State

/-- R40: the fields a request's record is opened with. -/
def openedRecord (s : State) (p : Port) (h : Header) (f : Forwarding) : CallRecord where
  state := .queued
  gen := 0
  reqPort := p
  reqStation := h.src
  reqTag := h.tag
  reqRing := s.effectiveRing p h
  addrStation := h.dst
  addrSvc := h.svc
  tgtPort := f.egress
  tgtStation := f.dst
  tgtSvc := f.svc
  carriedRing := f.carried
  via := f.addressed
  deadline := deadlineAfter s.timeBase (s.service f.addressed).timeout

/-- R40, R59: a request opens the record at the front of the free list and is delivered; the outcome status goes to a mirror copy. -/
def forwardRequest (s : State) (p : Port) (b : BufIx) (h : Header) (r : RuleIx) (f : Forwarding) : State × Byte :=
  match s.calls.freeList with
  | [] => (s, discardOutcome)
  | i :: _ =>
    let t := s.openRecord i (s.openedRecord p h f)
    let e := newEntry .forwarded (forwardedHeader (s.rule r) h f (recordTag (s.record i).gen i)) (some b)
      (some (recordTag (s.record i).gen i)) (s.rule r).oneShot none
    match t.deliver f.egress (.data (s.rule r).qclass) e with
    | some u => (u.forwarded, 0)
    | none => ((t.freeRecord i).sendCallReply (t.record i) .queueFull, Status.queueFull.code)

/-- R41: a notice is delivered without a record. -/
def forwardNotice (s : State) (b : BufIx) (h : Header) (r : RuleIx) (f : Forwarding) : State × Byte :=
  match s.deliver f.egress (.data (s.rule r).qclass)
      (newEntry .forwarded (forwardedHeader (s.rule r) h f h.tag) (some b) none (s.rule r).oneShot none) with
  | some u => (u.forwarded, 0)
  | none => (s.discarded, discardOutcome)

/-! ## Call matching (R54 to R58) -/

end State

/-- R56: the rewritten reply. -/
def replyHeader (e : RuleEntry) (h : Header) (rec_ : CallRecord) (len : Nat) : Header where
  kind := .reply
  ring := rec_.reqRing
  urgency := outgoingUrgency e h
  dst := rec_.reqStation
  src := rec_.addrStation
  svc := rec_.addrSvc
  length := natByte len
  tag := rec_.reqTag
  label := outgoingLabel e h
  status := h.status

/-- R55: the checks of a reply against the record its tag names. -/
def replyFits (p : Port) (h : Header) (ring : RingNo) (rec_ : CallRecord) : Bool :=
  p == rec_.tgtPort && h.src == rec_.tgtStation && h.svc == rec_.tgtSvc && h.dst == rec_.reqStation
    && decide (ring ≤ rec_.carriedRing)

namespace State

/-- R57: the delivery of a matched reply. -/
def deliverReply (s : State) (b : BufIx) (h : Header) (r : RuleIx) (rec_ : CallRecord) (len : Nat) : State × Byte :=
  match s.deliver rec_.reqPort (.data (s.rule r).qclass)
      (newEntry .forwarded (replyHeader (s.rule r) h rec_ len) (some b) none (s.rule r).oneShot none) with
  | some u => (u.forwarded, 0)
  | none => ((s.raise (.event .replyLost)).discarded, discardOutcome)

/-- R54 to R58: call matching. -/
def matchReply (s : State) (p : Port) (b : BufIx) (h : Header) (r : RuleIx) (len : Nat) : State × Byte :=
  match s.claimed h.tag with
  | none => ((s.raise (.event .staleReply)).discarded, discardOutcome)
  | some i =>
    if replyFits p h (s.effectiveRing p h) (s.record i) then
      ((s.withdrawIfQueued i).freeRecord i).deliverReply b h r (s.record i) len
    else ((s.raise (.event .replyMismatch)).discarded, discardOutcome)

/-! ## Mirror copies (R18 to R20) -/

end State

/-- R20. -/
def mirrorHeader (gsn dst : Station) (svc : Svc) (payload : Nat) : Header where
  kind := .notice
  ring := 0
  urgency := 0
  dst := dst
  src := gsn
  svc := svc
  length := natByte (19 + min payload Config.mirrorPayload)
  tag := 0
  label := 0
  status := 0

namespace State

/-- The mirror entry of a frame in buffer b. -/
def mirrorEntry (s : State) (p : Port) (b : BufIx) (r : RuleIx) (outcome : Byte) : QueueEntry :=
  newEntry .mirror
    (mirrorHeader s.settings.gsn s.settings.monitorStation s.settings.monitorSvc (s.buffer b).payload.length)
    (some b) none false (some ⟨p, r, outcome, (s.buffer b).arrivalTime⟩)

/-- R19: the delivery of a mirror copy to the monitor port's M, or none where the copy is lost. -/
def mirrorDelivery (s : State) (p : Port) (b : BufIx) (r : RuleIx) (outcome : Byte) : Option State :=
  match s.settings.monitorPort with
  | none => none
  | some m =>
    if s.settings.monitorStation = Config.noStation then none else s.deliver m .m (s.mirrorEntry p b r outcome)

/-- R18, R19: the mirror copy a matched rule with MIRROR 1 makes once the outcome is settled. -/
def mirrorCopy (s : State) (p : Port) (b : BufIx) (r : RuleIx) (outcome : Byte) : State :=
  if (s.rule r).mirror then
    (match s.mirrorDelivery p b r outcome with
      | some t => t
      | none => s.raise (.event .mirrorLost)).modCount (fun c => { c with mirrors := c.mirrors + 1 })
  else s

/-! ## The decision (R7) -/

/-- The effects of a settled outcome and, where a rule matched, its mirror copy. -/
def applySettled (s : State) (p : Port) (b : BufIx) (h : Header) : Settled → State
  | .unscanned => s.discarded
  | .noRule => (s.raise (.event .noRule)).discarded
  | .discard r => s.discarded.mirrorCopy p b r discardOutcome
  | .shortReply r => ((s.raise (.event .short)).discarded).mirrorCopy p b r discardOutcome
  | .refusal r st detail _ => (s.refuse p h st detail).mirrorCopy p b r st.code
  | .matching r len => (s.matchReply p b h r len).1.mirrorCopy p b r (s.matchReply p b h r len).2
  | .forward r f =>
    if h.kind.isRequest then
      (s.forwardRequest p b h r f).1.mirrorCopy p b r (s.forwardRequest p b h r f).2
    else (s.forwardNotice b h r f).1.mirrorCopy p b r (s.forwardNotice b h r f).2

/-- The decision for the frame in buffer b, with the release of the arrived frame's own hold at its end (R7). -/
def decideFrame (s : State) (p : Port) (b : BufIx) : State :=
  (s.applySettled p b (Header.decode (s.buffer b).image)
    (s.judgeArrival p (Header.decode (s.buffer b).image))).release b

/-- DECISION: the frame admitted first of those awaiting decision on port p. -/
def decisionStep (s : State) (p : Port) : State :=
  match (s.port p).awaiting with
  | [] => s
  | b :: bs => (s.modPort p (fun x => { x with awaiting := bs })).decideFrame p b

end State

/-! ## The meaning -/

/-- DECISION (R7, R28). -/
def execDecision (p : Port) (s : State) : Host.Outcome State Fault Refusal :=
  running (fun s => s.decisionStep p) s

end Sys2Proof.Machine
end

