-- ==== Sys2Proof/Machine/Events.lean ====
section
/-! DEFINITION. Notices (chapter Events, Notices, Counters and the Time Base, section 9.4, and R100). -/

namespace Sys2Proof.Machine

namespace State

/-- R168: the header of a notice. -/
def noticeHeader (s : State) : Header where
  kind := .notice
  ring := 0
  urgency := 7
  dst := s.settings.reportStation
  src := s.settings.gsn
  svc := s.settings.reportSvc
  length := 12
  tag := 0
  label := 0
  status := 0

/-- The places of the flags whose notice triggers have not been taken yet. -/
def untakenFlags (s : State) : BitVec 64 := s.wires.triggers.foldl (fun m f => m ||| flagMask f) 0

/-- R167, R168, R179: the event set and the time base at the build. A flag whose trigger is taken later is not in the notice. -/
def noticePayload (s : State) : List Byte := be64 (s.events.flags &&& ~~~s.untakenFlags) ++ be32 s.timeBase

/-- R167: the conditions 1 to 3 of a notice attempt. -/
def noticePossible (s : State) : Bool :=
  s.events.armed && s.settings.reportStation != Config.noStation && (s.port s.settings.reportPort).state.inService

/-- R100, R168: a notice built into buffer b and delivered to the report port's G queue, or none where G refuses it. -/
def noticeDelivery (s : State) (b : BufIx) : Option State :=
  (s.modBuffer b (fun x => { x with origin := .gateway, payload := s.noticePayload })).deliver s.settings.reportPort .g
    (newEntry .gateway s.noticeHeader (some b) none false none)

def disarm (s : State) : State := { s with events := { s.events with armed := false } }

/-- R167: a notice attempt. POOL_LOW is judged after ARMED has been cleared (R165). -/
def noticeAttempt (s : State) : State :=
  if s.noticePossible then
    match s.firstFree with
    | none => s
    | some b =>
      match s.noticeDelivery b with
      | none => s
      | some t => t.disarm.judge .poolLow (s.levelHolds .poolLow)
  else s

/-- A trigger that waits no longer. -/
def dropTrigger (s : State) (f : Flag) : State :=
  { s with wires := { s.wires with triggers := s.wires.triggers.filter (· != f) } }

/-- NOTICE_ATTEMPT: the event unit takes a waiting notice trigger (R167). The setting counts as taken now, so that it makes its
attempt where the flag is a member of NOTICE_EN as the settings now stand (log 10). -/
def noticeStep (s : State) (f : Flag) : State :=
  if f ∈ s.wires.triggers then
    if s.flagEnabled f then (s.dropTrigger f).noticeAttempt else s.dropTrigger f
  else s

/-- R154, R167: every trigger that waits has been taken, in the order of the settings, before a READ EVENTS returns its flag. A
trigger that such an attempt brings finds ARMED clear, and so comes to nothing (log 10). That the attempts come after the take of the
READ EVENTS and before its reply is the model's choice too (log 33). -/
def settleTriggers (s : State) : State :=
  let t := s.wires.triggers.foldl noticeStep s
  { t with wires := { t.wires with triggers := [] } }

end State

/-- NOTICE_ATTEMPT (R167, R168). -/
def execNoticeAttempt (f : Flag) (s : State) : Host.Outcome State Fault Refusal :=
  running (fun s => s.noticeStep f) s

end Sys2Proof.Machine
end

