-- ==== Sys2Proof/Machine/Management.lean ====
section
/-! DEFINITION. The management unit: judging the head, the seventeen operations, and the management reply (chapter In-Band
Management). -/

namespace Sys2Proof.Machine

/-- A management request as the unit takes it: where it came from, its header and payload, and its effective ring (R146). -/
structure Request where
  port : Port
  buffer : BufIx
  header : Header
  payload : List Byte
  ring : RingNo
  deriving DecidableEq, Repr

/-- The operations of R147, WRITE TABLE by its table. -/
inductive Operation where
  | identify | readTable | writeRule | writeService | writePort | writeQueue | writeGateway | clearTable | readState
  | setPortState | abortQueue | cancelCall | readCall | readEvents | readCounters | probe | restart
  deriving DecidableEq, Repr

/-- The tables a table code names (section 11.4). -/
inductive TableName where
  | rule | service | port | queue | gateway
  deriving DecidableEq, Repr

def TableName.ofCode (b : Byte) : Option TableName :=
  if b = 1 then some .rule else if b = 2 then some .service else if b = 3 then some .port
  else if b = 4 then some .queue else if b = 5 then some .gateway else none

/-- R151: the number of indices of a table. -/
def TableName.size : TableName → Nat
  | .rule => 256
  | .service => 128
  | .port => 4
  | .queue => 16
  | .gateway => 1

/-- R180. -/
def TableName.imageLength : TableName → Nat
  | .rule => 23
  | .service => 19
  | .port => 13
  | .queue => 3
  | .gateway => 24

def TableName.write : TableName → Operation
  | .rule => .writeRule
  | .service => .writeService
  | .port => .writePort
  | .queue => .writeQueue
  | .gateway => .writeGateway

/-- R147: every operation but WRITE TABLE, by its SVC, with its kind and request length. -/
def plainOperation (svc : Svc) : Option (Operation × Kind × Nat) :=
  if svc = 1 then some (.identify, .query, 0)
  else if svc = 2 then some (.readTable, .query, 4)
  else if svc = 4 then some (.clearTable, .command, 3)
  else if svc = 5 then some (.readState, .query, 0)
  else if svc = 6 then some (.setPortState, .command, 2)
  else if svc = 7 then some (.abortQueue, .command, 2)
  else if svc = 8 then some (.cancelCall, .command, 2)
  else if svc = 9 then some (.readCall, .query, 1)
  else if svc = 10 then some (.readEvents, .query, 0)
  else if svc = 11 then some (.readCounters, .query, 2)
  else if svc = 12 then some (.probe, .query, 8)
  else if svc = 13 then some (.restart, .command, 0)
  else none

/-- R147: the length checks of a WRITE TABLE. -/
def writeOperation (payload : List Byte) : Status ⊕ Operation :=
  if payload.length < 2 then .inl .badLength
  else
    match TableName.ofCode (byteAt payload 0) with
    | none => .inl .badTable
    | some t => if payload.length = 2 + t.imageLength then .inr t.write else .inl .badLength

/-- R147: the operation a request asks for, or the status that refuses it. -/
def operationOf (h : Header) (payload : List Byte) : Status ⊕ Operation :=
  if h.svc = 3 then
    if h.kind = .command then writeOperation payload else .inl .badOp
  else
    match plainOperation h.svc with
    | none => .inl .badOp
    | some (op, kind, n) =>
      if h.kind ≠ kind then .inl .badOp else if payload.length = n then .inr op else .inl .badLength

/-- What an operation comes to: the state after its effects, its status, its reply payload, and the record whose CANCELLED call
reply is still to be delivered (R148). -/
structure Executed where
  state : State
  status : Status
  payload : List Byte
  owed : Option CallRecord

/-- A refused request changes no state (R147). -/
def refusedWith (s : State) (st : Status) : Executed := ⟨s, st, [], none⟩

/-- OK with an empty reply. -/
def doneEmpty (s : State) : Executed := ⟨s, .ok, [], none⟩

/-- OK with a reply payload. -/
def doneWith (s : State) (payload : List Byte) : Executed := ⟨s, .ok, payload, none⟩

/-- A byte that names a port. -/
def portOf (b : Byte) : Option Port := if h : b.toNat < 4 then some ⟨b.toNat, h⟩ else none

/-- A byte that names one of 128 indices. -/
def indexOf (b : Byte) : Option (Fin 128) := if h : b.toNat < 128 then some ⟨b.toNat, h⟩ else none

/-! ## Reading operations -/

/-- IDENTIFY (R150). -/
def opIdentify (s : State) (_ : Request) : Executed :=
  doneWith s (be16 Config.vendorCode ++ be16 Config.partCode ++ [Config.revision] ++ be16 256 ++ [128, 128] ++ be16 256
    ++ [4, natByte Config.gDepth, natByte Config.inputQueueEntries, s.settings.gsn])

namespace State

/-- The image of an entry as it stands. -/
def imageAt (s : State) (t : TableName) (i : Nat) : List Byte :=
  match t with
  | .rule => (look s.tables.rules (Fin.ofNat 256 i)).image
  | .service => (look s.tables.services (Fin.ofNat 128 i)).image
  | .port => (look s.tables.portRecs (Fin.ofNat 4 i)).image
  | .queue => (look s.tables.queueRecs (Fin.ofNat 16 i)).image
  | .gateway => s.settings.image

end State

/-- R151: the number of entries one reply returns. -/
def entriesReturned (t : TableName) (first count : Nat) : Nat :=
  min count (min (t.size - first) (Config.readTableRoom / t.imageLength))

/-- READ TABLE (R151). -/
def opReadTable (s : State) (q : Request) : Executed :=
  match TableName.ofCode (byteAt q.payload 0) with
  | none => refusedWith s .badTable
  | some t =>
    if t.size ≤ (halfAt q.payload 1).toNat then refusedWith s .badIndex
    else if byteAt q.payload 3 = 0 then refusedWith s .badValue
    else
      let first := (halfAt q.payload 1).toNat
      let n := entriesReturned t first (byteAt q.payload 3).toNat
      doneWith s ([byteAt q.payload 0, natByte n] ++ be16 (natHalf (first + n))
        ++ (List.range n).flatMap (fun k => s.imageAt t (first + k)))

/-- The ten bytes READ STATE gives for a port (section 11.4). -/
def portReport (s : State) (p : Port) : List Byte :=
  let x := s.port p
  [x.state.code, natByte x.score,
    natByte ((if x.linkUp then 1 else 0) + (if x.ownHold.isSome then 2 else 0) + (if x.partnerHold.isSome then 4 else 0)),
    natByte (s.occupancy p), natByte (look x.data 0).length, natByte (look x.data 1).length,
    natByte (look x.data 2).length, natByte (look x.data 3).length, natByte x.gq.length, natByte x.mq.length]

/-- READ STATE (R152). -/
def opReadState (s : State) (_ : Request) : Executed :=
  doneWith s (portReport s 0 ++ portReport s 1 ++ portReport s 2 ++ portReport s 3 ++ be16 (natHalf s.freeCount)
    ++ [natByte s.recordsInUse,
        natByte ((if s.levelHolds .poolLow then 1 else 0) + (if s.levelHolds .callsHigh then 2 else 0))]
    ++ be32 s.timeBase)

/-- The bytes of a call record (section 11.4). -/
def recordReport (r : CallRecord) : List Byte :=
  [r.state.code, r.gen, portByte r.reqPort, r.reqStation] ++ be16 r.reqTag ++ [r.reqRing.setWidth 8, r.addrStation]
    ++ be16 (svcHalf r.addrSvc) ++ [portByte r.tgtPort, r.tgtStation] ++ be16 (svcHalf r.tgtSvc)
    ++ [r.carriedRing.setWidth 8, natByte r.via.val] ++ be32 r.deadline

/-- READ CALL (R153). -/
def opReadCall (s : State) (q : Request) : Executed :=
  match indexOf (byteAt q.payload 0) with
  | none => refusedWith s .badIndex
  | some i => doneWith s (recordReport (s.record i))

/-- The bytes of the last-refusal capture (section 11.4). -/
def captureReport (c : Capture) : List Byte :=
  [portByte c.port, c.source, c.destination] ++ be16 (svcHalf c.service)
    ++ [c.kind.code.setWidth 8, c.status.code] ++ be16 c.detail

/-- READ EVENTS (R154): every flag returned set is cleared, and ARMED is set. The manual does not say where the notice attempts that
still wait fall about the take (R145) and the reply (R148); between the room test and the reply is the model's choice (log 33). -/
def opReadEvents (s : State) (_ : Request) : Executed :=
  let t := s.settleTriggers
  doneWith { t with events := { t.events with flags := 0, armed := true } }
    (be64 t.events.flags ++ captureReport t.events.capture)

def portCounts (c : PortCounters) : List Byte :=
  be32 c.rxGood ++ be32 c.rxCheck ++ be32 c.nakFullSent ++ be32 c.nakBusySent ++ be32 c.txOk ++ be32 c.txFail
    ++ be32 c.txDropped

def gatewayCounts (c : GatewayCounters) : List Byte :=
  be32 c.forwarded ++ be32 c.discarded ++ be32 c.refused ++ be32 c.callsOpened ++ be32 c.callsTimedOut ++ be32 c.mirrors

/-- READ COUNTERS (R155, R170). -/
def opReadCounters (s : State) (q : Request) : Executed :=
  if 4 < byteAt q.payload 0 then refusedWith s .badIndex
  else if 1 < byteAt q.payload 1 then refusedWith s .badValue
  else
    match portOf (byteAt q.payload 0) with
    | some p =>
      doneWith (if byteAt q.payload 1 = 1 then s.modPortCount p (fun _ => PortCounters.reset) else s)
        (portCounts (s.port p).counters)
    | none =>
      doneWith (if byteAt q.payload 1 = 1 then s.modCount (fun _ => GatewayCounters.reset) else s)
        (gatewayCounts s.events.counters)

/-! ## PROBE (R159) -/

/-- The eleven bytes of a PROBE reply. -/
structure ProbeResult where
  outcome : Byte
  rule : Half
  detail : Half
  serving : Half
  carried : Byte
  egress : Byte
  length : Byte
  mirror : Byte
  deriving DecidableEq, Repr

def ProbeResult.encode (r : ProbeResult) : List Byte :=
  [r.outcome] ++ be16 r.rule ++ be16 r.detail ++ be16 r.serving ++ [r.carried, r.egress, r.length, r.mirror]

/-- A result with every item at its "otherwise" value. -/
def probeNothing (outcome : Byte) : ProbeResult := ⟨outcome, 65535, 65535, 65535, 255, 255, 255, 0⟩

/-- The items a settled outcome gives. -/
def probeSettled (s : State) : Settled → ProbeResult
  | .unscanned => probeNothing 255
  | .noRule => probeNothing 255
  | .discard r => { probeNothing 255 with rule := detailOf r, mirror := boolByte (s.rule r).mirror }
  | .shortReply r => { probeNothing 255 with rule := detailOf r, mirror := boolByte (s.rule r).mirror }
  | .refusal r st detail g =>
    { outcome := st.code
      rule := detailOf r
      detail := detail
      serving := (g.serving.map detailOf).getD 65535
      carried := (g.carried.map (·.setWidth 8)).getD 255
      egress := (g.egress.map portByte).getD 255
      length := (g.length.map natByte).getD 255
      mirror := boolByte (s.rule r).mirror }
  | .matching r len =>
    { probeNothing 254 with rule := detailOf r, length := natByte len, mirror := boolByte (s.rule r).mirror }
  | .forward r f =>
    { outcome := 0
      rule := detailOf r
      detail := detailOf f.addressed
      serving := detailOf f.serving
      carried := f.carried.setWidth 8
      egress := portByte f.egress
      length := natByte f.length
      mirror := boolByte (s.rule r).mirror }

/-- The header of the hypothetical arrival. -/
def probeHeader (payload : List Byte) : Header where
  kind := Kind.ofCode ((byteAt payload 5).setWidth 2)
  ring := (byteAt payload 6).setWidth 2
  urgency := 0
  dst := byteAt payload 2
  src := byteAt payload 1
  svc := (halfAt payload 3).setWidth 12
  length := byteAt payload 7
  tag := 0
  label := 0
  status := 0

def probe (s : State) (p : Port) (h : Header) : ProbeResult :=
  if h.dst = s.settings.gsn then probeNothing 253 else probeSettled s (s.judgeArrival p h)

/-- PROBE (R159). -/
def opProbe (s : State) (q : Request) : Executed :=
  match portOf (byteAt q.payload 0) with
  | none => refusedWith s .badIndex
  | some p =>
    if 4095 < halfAt q.payload 3 ∨ 3 < byteAt q.payload 5 ∨ 3 < byteAt q.payload 6 ∨ 48 < byteAt q.payload 7 then
      refusedWith s .badValue
    else doneWith s (probe s p (probeHeader q.payload)).encode

/-! ## Writing operations -/

namespace State

def setTables (s : State) (f : Tables → Tables) : State := { s with tables := f s.tables }

def setRule (s : State) (i : RuleIx) (e : RuleEntry) : State :=
  s.setTables (fun t => { t with rules := put t.rules i e })

def setService (s : State) (i : SvcIx) (e : ServiceEntry) : State :=
  s.setTables (fun t => { t with services := put t.services i e })

def setPortRec (s : State) (p : Port) (r : PortRec) : State :=
  s.setTables (fun t => { t with portRecs := put t.portRecs p r })

def setQueueRec (s : State) (i : Fin 16) (r : QueueRec) : State :=
  s.setTables (fun t => { t with queueRecs := put t.queueRecs i r })

def setSettings (s : State) (r : Settings) : State := s.setTables (fun t => { t with settings := r })

end State

/-- The entry image of a WRITE TABLE. -/
def writtenImage (q : Request) : List Byte := q.payload.drop 2

/-- WRITE TABLE of a rule entry (R2, R156). Every one-byte index lies in the table. -/
def opWriteRule (s : State) (q : Request) : Executed :=
  match RuleEntry.ofImage (writtenImage q) with
  | none => refusedWith s .badValue
  | some e => doneEmpty (s.setRule (Fin.ofNat 256 (byteAt q.payload 1).toNat) e)

/-- R26: two keys share a pair of station and service. -/
def keysMeet (a b : ServiceEntry) : Bool :=
  a.station == b.station && decide (a.svcLo ≤ b.svcHi) && decide (b.svcLo ≤ a.svcHi)

/-- R26: another valid entry's key meets the key written at index i. -/
def overlapsOther (s : State) (i : SvcIx) (e : ServiceEntry) : Bool :=
  (List.finRange 128).any (fun j => j != i && (s.service j).valid && keysMeet e (s.service j))

/-- WRITE TABLE of a service entry (R24 to R26, R156). -/
def opWriteService (s : State) (q : Request) : Executed :=
  match indexOf (byteAt q.payload 1) with
  | none => refusedWith s .badIndex
  | some i =>
    match ServiceEntry.ofImage (writtenImage q) with
    | none => refusedWith s .badValue
    | some e =>
      if e.valid = true ∧ e.kind = .gate ∧ (s.setService i e).targetUsable e = false then refusedWith s .badTarget
      else if e.valid = true ∧ overlapsOther s i e = true then refusedWith s .overlap
      else doneEmpty (s.setService i e)

/-- R4: two non-empty blocks share an index. -/
def blocksMeet (a b : PortRec) : Bool :=
  a.ruleCount != 0 && b.ruleCount != 0
    && decide (a.ruleStart.toNat < b.ruleStart.toNat + b.ruleCount.toNat)
    && decide (b.ruleStart.toNat < a.ruleStart.toNat + a.ruleCount.toNat)

/-- Check 4 of R141. -/
def blockOverlapsOther (s : State) (p : Port) (r : PortRec) : Bool :=
  (List.finRange 4).any (fun q => q != p && blocksMeet r (s.portRec q))

/-- Checks 2 and 3 of R141. -/
def portMarksOk (r : PortRec) : Bool :=
  (r.holdMark == 0 || decide (r.resumeMark < r.holdMark)) && decide (r.ruleStart.toNat + r.ruleCount.toNat ≤ 256)

/-- Check 5 of R141, R118. -/
def ackWindowFree (s : State) (p : Port) (r : PortRec) : Bool :=
  r.ackWindow == (s.portRec p).ackWindow || (s.port p).state == .disabled || (s.port p).state == .config

/-- WRITE TABLE of a PORT record (R141, R156). -/
def opWritePort (s : State) (q : Request) : Executed :=
  match portOf (byteAt q.payload 1) with
  | none => refusedWith s .badIndex
  | some p =>
    match PortRec.ofImage (writtenImage q) with
    | none => refusedWith s .badValue
    | some r =>
      if portMarksOk r = false then refusedWith s .badValue
      else if blockOverlapsOther s p r then refusedWith s .overlap
      else if ackWindowFree s p r = false then refusedWith s .wrongState
      else doneEmpty (s.setPortRec p r)

/-- WRITE TABLE of a QUEUE record (R71, R156). -/
def opWriteQueue (s : State) (q : Request) : Executed :=
  if h : (byteAt q.payload 1).toNat < 16 then
    match QueueRec.ofImage (writtenImage q) with
    | none => refusedWith s .badValue
    | some r => doneEmpty (s.setQueueRec ⟨(byteAt q.payload 1).toNat, h⟩ r)
  else refusedWith s .badIndex

/-- R87: the former monitor port's M is emptied where MONITOR_PORT changed. -/
def leaveMonitor (s : State) (former now : Option Port) : State :=
  match former with
  | none => s
  | some m => if now = some m then s else s.abortQueue m .m

/-- The GATEWAY record as written, with the judgements of R165 by its marks. R163 lets the two settings be taken in either order;
POOL_LOW before CALLS_HIGH is the model's choice (log 24). -/
def judgeMarks (s : State) (r : Settings) : State :=
  ((s.setSettings r).judge .poolLow (s.levelHolds .poolLow)).judge .callsHigh (s.levelHolds .callsHigh)

/-- R165, R167: the flags a write of the marks sets are set in its act, so the notice attempts they trigger are made in it too,
in the order of the settings, so that POOL_LOW's comes before CALLS_HIGH's (log 24). R148 lets the notice they build join G before
the management reply or after it; before it is the model's choice (log 32). The triggers that waited before the write wait on. -/
def takeNewTriggers (before : State) (s : State) : State :=
  (s.wires.triggers.drop before.wires.triggers.length).foldl State.noticeStep s

/-- An accepted write of the GATEWAY record (R161): the record, the judgements of R165 with their notice attempts, and then the
former monitor port's M (R87). The manual gives no order between the judgement of POOL_LOW by the new mark and the release of that
M's buffers; judging first is the model's choice (log 24). -/
def writeSettings (s : State) (r : Settings) : State :=
  leaveMonitor (takeNewTriggers s (judgeMarks s r)) s.settings.monitorPort r.monitorPort

/-- WRITE TABLE of the GATEWAY record (R161, R101, R156). -/
def opWriteGateway (s : State) (q : Request) : Executed :=
  if byteAt q.payload 1 ≠ 0 then refusedWith s .badIndex
  else
    match Settings.ofImage (writtenImage q) with
    | none => refusedWith s .badValue
    | some r =>
      if r.reserve ≠ s.settings.reserve ∧ s.freeCount ≤ r.reserve.toNat then refusedWith s .wrongState
      else doneEmpty (writeSettings s r)

/-- A table with the entries from `first` to `last` at a value. -/
def clearRange {α : Type} {n : Nat} (v : Vector α n) (first last : Nat) (x : α) : Vector α n :=
  Vector.ofFn (fun i => if first ≤ i.val ∧ i.val ≤ last then x else look v i)

/-- CLEAR TABLE (R157). -/
def opClearTable (s : State) (q : Request) : Executed :=
  let first := (byteAt q.payload 1).toNat
  let last := (byteAt q.payload 2).toNat
  match TableName.ofCode (byteAt q.payload 0) with
  | some .rule =>
    if last < first then refusedWith s .badIndex
    else doneEmpty (s.setTables (fun t => { t with rules := clearRange t.rules first last RuleEntry.reset }))
  | some .service =>
    if last < first ∨ 127 < last then refusedWith s .badIndex
    else doneEmpty (s.setTables (fun t => { t with services := clearRange t.services first last ServiceEntry.reset }))
  | some .port => refusedWith s .badTable
  | some .queue => refusedWith s .badTable
  | some .gateway => refusedWith s .badTable
  | none => refusedWith s .badTable

/-! ## Commands on ports, queues and calls (R158) -/

/-- The targets of SET PORT STATE (section 11.4). -/
def targetOf (b : Byte) : Option PortState :=
  if b = 0 then some .disabled else if b = 1 then some .config else if b = 2 then some .listen
  else if b = 3 then some .forward else none

/-- SET PORT STATE (R126 to R139). -/
def opSetPortState (s : State) (q : Request) : Executed :=
  match portOf (byteAt q.payload 0) with
  | none => refusedWith s .badIndex
  | some p =>
    match targetOf (byteAt q.payload 1) with
    | none => refusedWith s .badValue
    | some target =>
      if p = q.port ∧ target.inService = false then refusedWith s .selfPort
      else if target = (s.port p).state then doneEmpty s
      else if transitionAllowed (s.port p).state target then doneEmpty (s.transition p target)
      else refusedWith s .wrongState

/-- The queue codes of ABORT QUEUE (section 11.4). -/
def queueOf (b : Byte) : Option QueueId :=
  if h : b.toNat < 4 then some (.data ⟨b.toNat, h⟩) else if b = 4 then some .g else if b = 5 then some .m else none

/-- ABORT QUEUE (R84). -/
def opAbortQueue (s : State) (q : Request) : Executed :=
  match portOf (byteAt q.payload 0) with
  | none => refusedWith s .badIndex
  | some p =>
    match queueOf (byteAt q.payload 1) with
    | none => refusedWith s .badValue
    | some id => doneEmpty (s.abortQueue p id)

/-- CANCEL CALL (R63): the record is freed; its CANCELLED call reply is owed unless silence was asked for. -/
def opCancelCall (s : State) (q : Request) : Executed :=
  match indexOf (byteAt q.payload 0) with
  | none => refusedWith s .badIndex
  | some i =>
    if 1 < byteAt q.payload 1 then refusedWith s .badValue
    else if (s.record i).inUse then
      ⟨(s.withdrawIfQueued i).freeRecord i, .ok, [], if byteAt q.payload 1 = 0 then some (s.record i) else none⟩
    else refusedWith s .wrongState

/-- RESTART (R160): RESTART pending is set; the rest waits for the report about the reply. -/
def opRestart (s : State) (q : Request) : Executed :=
  doneEmpty { s with mgmt := { s.mgmt with restart := .awaiting q.port } }

/-- The operations, each by its own definition. -/
def execute (op : Operation) (s : State) (q : Request) : Executed :=
  match op with
  | .identify => opIdentify s q
  | .readTable => opReadTable s q
  | .writeRule => opWriteRule s q
  | .writeService => opWriteService s q
  | .writePort => opWritePort s q
  | .writeQueue => opWriteQueue s q
  | .writeGateway => opWriteGateway s q
  | .clearTable => opClearTable s q
  | .readState => opReadState s q
  | .setPortState => opSetPortState s q
  | .abortQueue => opAbortQueue s q
  | .cancelCall => opCancelCall s q
  | .readCall => opReadCall s q
  | .readEvents => opReadEvents s q
  | .readCounters => opReadCounters s q
  | .probe => opProbe s q
  | .restart => opRestart s q

/-! ## Judging the head (R145 to R147) -/

/-- What the management unit makes of its head. -/
inductive HeadJudgement where
  /-- No head can be taken: none is there, RESTART pending is set, or the arrival port's G holds 8 entries. -/
  | waits
  /-- R145, test 1. -/
  | discardKind (e : MgmtEntry)
  /-- R145, test 2. -/
  | discardAdmit (e : MgmtEntry)
  /-- R146. -/
  | ringRefused (e : MgmtEntry)
  /-- R147. -/
  | refused (e : MgmtEntry) (st : Status)
  | run (e : MgmtEntry) (op : Operation)
  deriving DecidableEq, Repr

namespace State

/-- The request an entry of the input queue holds. -/
def request (s : State) (e : MgmtEntry) : Request where
  port := e.port
  buffer := e.buffer
  header := Header.decode (s.buffer e.buffer).image
  payload := (s.buffer e.buffer).payload
  ring := s.effectiveRing e.port (Header.decode (s.buffer e.buffer).image)

/-- R146. -/
def ringPasses (s : State) (q : Request) : Bool :=
  match q.header.kind with
  | .query => decide (q.ring ≤ s.settings.mgmtReadRing)
  | .command => decide (q.ring ≤ s.settings.mgmtWriteRing)
  | .reply => false
  | .notice => false

def judgeEntry (s : State) (e : MgmtEntry) : HeadJudgement :=
  if (s.request e).header.kind.isRequest = false then .discardKind e
  else if (s.portRec e.port).mgmtAdmit = false then .discardAdmit e
  else if Config.gDepth ≤ (s.port e.port).gq.length then .waits
  else if s.ringPasses (s.request e) = false then .ringRefused e
  else
    match operationOf (s.request e).header (s.request e).payload with
    | .inl st => .refused e st
    | .inr op => .run e op

def judgeHead (s : State) : HeadJudgement :=
  if s.mgmt.restart = .clear then
    match s.mgmt.queue with
    | [] => .waits
    | e :: _ => s.judgeEntry e
  else .waits

/-! ## The reply (R148, R149) -/

/-- The head leaves the input queue at its take. -/
def dropHead (s : State) : State := { s with mgmt := { s.mgmt with queue := s.mgmt.queue.tail } }

/-- A demand that waits is taken by its block. -/
def takeDemand (s : State) (d : Demand) : State :=
  match d with
  | .delivered p => s.takeOldest (Claim.isDelivered p)
  | .undeliverable p => s.takeOldest (Claim.isUndeliverable p)
  | .targetPortDown p => s.takeOldest (Claim.isTargetPortDown p)
  | .portDown p => s.takeOldest (Claim.isPortDown p)
  | .withdraw p tag => s.withdrawStep p tag
  | .notice f => s.noticeStep f

end State

/-- Whether a demand is a claim of the call table. -/
def demandIsClaim : Demand → Bool
  | .delivered _ | .undeliverable _ | .targetPortDown _ | .portDown _ => true
  | .withdraw _ _ | .notice _ => false

/-- R149. -/
def managementHeader (gsn : Station) (q : Request) (st : Status) (payload : List Byte) : Header where
  kind := .reply
  ring := q.ring
  urgency := 7
  dst := q.header.src
  src := gsn
  svc := q.header.svc
  length := natByte payload.length
  tag := q.header.tag
  label := 0
  status := st.code

/-- R148: the entry of a management reply; an empty payload names no buffer. -/
def managementEntry (gsn : Station) (q : Request) (st : Status) (payload : List Byte) (restart : Bool) : QueueEntry :=
  { newEntry .gateway (managementHeader gsn q st payload) (if payload = [] then none else some q.buffer) none false none with
    restartReply := restart }

namespace State

def sendOwed (s : State) (r : Option CallRecord) : State :=
  match r with
  | none => s
  | some r => s.sendCallReply r .cancelled

/-- What comes between an operation's effects and its reply (R148): the call reply the operation owes, if it goes first, and the
demands that are taken meanwhile. A call reply that is still owed keeps the call table's later claims waiting (R68). -/
def interleave (s : State) (o : Interleaving) (owed : Option CallRecord) : State :=
  if o.callReplyAfter && owed.isSome then (o.between.filter (fun d => !demandIsClaim d)).foldl takeDemand s
  else o.between.foldl takeDemand (s.sendOwed owed)

/-- The reply is written into the request's buffer, where it has a payload. -/
def writeReply (s : State) (b : BufIx) (payload : List Byte) : State :=
  if payload = [] then s else s.modBuffer b (fun x => { x with payload := payload })

/-- The reply is delivered to the arrival port's G, or lost (R148); a lost RESTART reply is reported at once (R160). -/
def offerManagement (s : State) (q : Request) (e : QueueEntry) : State :=
  match s.deliver q.port .g e with
  | some t => t
  | none => if e.restartReply then (s.raise (.event .gwReplyLost)).reportRestart else s.raise (.event .gwReplyLost)

/-- R148: the reply of a request that came to x, with what is interleaved, and the release of the request's own hold. -/
def answer (gsn : Station) (o : Interleaving) (q : Request) (x : Executed) (restart : Bool) : State :=
  let t := ((x.state.interleave o x.owed).writeReply q.buffer x.payload).offerManagement q
    (managementEntry gsn q x.status x.payload restart)
  (if o.callReplyAfter then t.sendOwed x.owed else t).release q.buffer

/-- MANAGEMENT_TAKE: the head is discarded, refused or executed (R145 to R149). -/
def manage (s : State) (o : Interleaving) : State :=
  match s.judgeHead with
  | .waits => s
  | .discardKind e => s.dropHead.discarded.release e.buffer
  | .discardAdmit e => (s.dropHead.raise (.event .mgmtRefused)).release e.buffer
  | .ringRefused e =>
    answer s.settings.gsn o (s.request e) (refusedWith (s.dropHead.raise (.event .mgmtRefused)) .ring) false
  | .refused e st => answer s.settings.gsn o (s.request e) (refusedWith s.dropHead st) false
  | .run e op => answer s.settings.gsn o (s.request e) (execute op s.dropHead (s.request e)) (op == .restart)

/-- An operation's own row: the take whose head runs that operation (log 12). -/
def takeOf (op : Operation) (o : Interleaving) (s : State) : State :=
  match s.judgeHead with
  | .run _ op' => if op' = op then s.manage o else s
  | .waits => s
  | .discardKind _ => s
  | .discardAdmit _ => s
  | .ringRefused _ => s
  | .refused _ _ => s

end State

/-! ## The meanings -/

/-- MANAGEMENT_TAKE (R145 to R149). -/
def execManagementTake (o : Interleaving) (s : State) : Host.Outcome State Fault Refusal :=
  running (fun s => s.manage o) s

/-- IDENTIFY (R150). -/
def execIdentify (o : Interleaving) (s : State) : Host.Outcome State Fault Refusal :=
  running (State.takeOf .identify o) s

/-- READ_TABLE (R151). -/
def execReadTable (o : Interleaving) (s : State) : Host.Outcome State Fault Refusal :=
  running (State.takeOf .readTable o) s

/-- WRITE_TABLE_RULE (R2, R156). -/
def execWriteTableRule (o : Interleaving) (s : State) : Host.Outcome State Fault Refusal :=
  running (State.takeOf .writeRule o) s

/-- WRITE_TABLE_SERVICE (R24 to R26, R156). -/
def execWriteTableService (o : Interleaving) (s : State) : Host.Outcome State Fault Refusal :=
  running (State.takeOf .writeService o) s

/-- WRITE_TABLE_PORT (R141, R156). -/
def execWriteTablePort (o : Interleaving) (s : State) : Host.Outcome State Fault Refusal :=
  running (State.takeOf .writePort o) s

/-- WRITE_TABLE_QUEUE (R71, R156). -/
def execWriteTableQueue (o : Interleaving) (s : State) : Host.Outcome State Fault Refusal :=
  running (State.takeOf .writeQueue o) s

/-- WRITE_TABLE_GATEWAY (R161, R101, R87, R165). -/
def execWriteTableGateway (o : Interleaving) (s : State) : Host.Outcome State Fault Refusal :=
  running (State.takeOf .writeGateway o) s

/-- CLEAR_TABLE (R157). -/
def execClearTable (o : Interleaving) (s : State) : Host.Outcome State Fault Refusal :=
  running (State.takeOf .clearTable o) s

/-- READ_STATE (R152). -/
def execReadState (o : Interleaving) (s : State) : Host.Outcome State Fault Refusal :=
  running (State.takeOf .readState o) s

/-- SET_PORT_STATE (R126). -/
def execSetPortState (o : Interleaving) (s : State) : Host.Outcome State Fault Refusal :=
  running (State.takeOf .setPortState o) s

/-- ABORT_QUEUE (R84). -/
def execAbortQueue (o : Interleaving) (s : State) : Host.Outcome State Fault Refusal :=
  running (State.takeOf .abortQueue o) s

/-- CANCEL_CALL (R63). -/
def execCancelCall (o : Interleaving) (s : State) : Host.Outcome State Fault Refusal :=
  running (State.takeOf .cancelCall o) s

/-- READ_CALL (R153). -/
def execReadCall (o : Interleaving) (s : State) : Host.Outcome State Fault Refusal :=
  running (State.takeOf .readCall o) s

/-- READ_EVENTS (R154). -/
def execReadEvents (o : Interleaving) (s : State) : Host.Outcome State Fault Refusal :=
  running (State.takeOf .readEvents o) s

/-- READ_COUNTERS (R155). -/
def execReadCounters (o : Interleaving) (s : State) : Host.Outcome State Fault Refusal :=
  running (State.takeOf .readCounters o) s

/-- PROBE (R159). -/
def execProbe (o : Interleaving) (s : State) : Host.Outcome State Fault Refusal :=
  running (State.takeOf .probe o) s

/-- RESTART (R160). -/
def execRestart (o : Interleaving) (s : State) : Host.Outcome State Fault Refusal :=
  running (State.takeOf .restart o) s

end Sys2Proof.Machine
end

