-- ==== Sys2Proof/Machine/Reset.lean ====
section
/-! DEFINITION. Pin reset and the restart act (chapter Bring-Up and Restart). -/

namespace Sys2Proof.Machine

/-- A frame that was being sent is lost; its entry is no longer in transmission. -/
def entryUnsent (e : QueueEntry) : QueueEntry := { e with inTransmission := false }

/-- R173: a port while reset is asserted: it sends nothing and its receiver is off; the frame it was sending or receiving is
lost. What else it holds stands until the release overwrites it (log 18). -/
def portAsserted (x : PortSt) : PortSt :=
  { x with
    sending := .silent
    reception := .none
    attempt := none
    data := x.data.map (fun es => es.map entryUnsent)
    gq := x.gq.map entryUnsent
    mq := x.mq.map entryUnsent }

namespace State

def assertReset (s : State) : State := { s with resetAsserted := true, ports := s.ports.map portAsserted }

/-- R173: the release samples the straps and gives every item its reset value. -/
def releaseReset (s : State) (bringup : Port) (stn : BitVec 3) : State :=
  State.atReset (Config.gsnBase + stn.setWidth 8) bringup (fun _ => .none) s.pending

/-- R176: what the receiver of a port is left in by the restart act: the bring-up port passes over a FRAME it was receiving; the
others are DISABLED, with their receivers off. -/
def restartReception (s : State) (bringup p : Port) : Reception :=
  if p = bringup then receptionClosed (s.port p).reception else .none

/-- R176: the restart act, once the report about the RESTART reply has come. A control symbol already begun is cut with the FRAMEs,
which is the model's choice (log 31). -/
def restartAct (s : State) : State :=
  match s.mgmt.restart with
  | .reported p => State.atReset s.settings.gsn p (s.restartReception p) s.pending
  | .clear => s
  | .awaiting _ => s

end State

/-- RESET_ASSERT (R173): the pin may be asserted at any moment. -/
def execResetAssert (s : State) : Host.Outcome State Fault Refusal := .next s.assertReset

/-- RESET_RELEASE (R173, R174). -/
def execResetRelease (bringup : Port) (stn : BitVec 3) (s : State) : Host.Outcome State Fault Refusal :=
  .next (s.releaseReset bringup stn)

/-- RESTART_ACT (R176). -/
def execRestartAct (s : State) : Host.Outcome State Fault Refusal := running State.restartAct s

end Sys2Proof.Machine
end

