-- ==== Sys2Proof/Machine/Dispatch.lean ====
section
/-! DEFINITION. One arm per command of spec/opcode_table.json. -/

namespace Sys2Proof.Machine

def exec (i : Instr) (s : State) : Host.Outcome State Fault Refusal :=
  match i with
  | .resetAssert => Sys2Proof.Machine.execResetAssert s
  | .resetRelease bringup stn => Sys2Proof.Machine.execResetRelease bringup stn s
  | .frameReceived p chars => Sys2Proof.Machine.execFrameReceived p chars s
  | .brokenFrame p what => Sys2Proof.Machine.execBrokenFrame p what s
  | .ackReceived p => Sys2Proof.Machine.execAckReceived p s
  | .nakReceived p reason => Sys2Proof.Machine.execNakReceived p reason s
  | .ackWindowExpiry p => Sys2Proof.Machine.execAckWindowExpiry p s
  | .strayAnswer p a => Sys2Proof.Machine.execStrayAnswer p a s
  | .holdReceived p duration => Sys2Proof.Machine.execHoldReceived p duration s
  | .partnerHoldExpiry p => Sys2Proof.Machine.execPartnerHoldExpiry p s
  | .idleRun p => Sys2Proof.Machine.execIdleRun p s
  | .lossOfSignal p => Sys2Proof.Machine.execLossOfSignal p s
  | .unrecognisedCharacter p => Sys2Proof.Machine.execUnrecognisedCharacter p s
  | .transmitterSymbolEnd p => Sys2Proof.Machine.execTransmitterSymbolEnd p s
  | .frameSent p => Sys2Proof.Machine.execFrameSent p s
  | .attemptStart p => Sys2Proof.Machine.execAttemptStart p s
  | .intervalTimerExpiry p q => Sys2Proof.Machine.execIntervalTimerExpiry p q s
  | .holdResendExpiry p => Sys2Proof.Machine.execHoldResendExpiry p s
  | .decision p => Sys2Proof.Machine.execDecision p s
  | .deliveredClaim p => Sys2Proof.Machine.execDeliveredClaim p s
  | .undeliverableClaim p => Sys2Proof.Machine.execUndeliverableClaim p s
  | .targetPortDownClaim p => Sys2Proof.Machine.execTargetPortDownClaim p s
  | .portDownClaim p => Sys2Proof.Machine.execPortDownClaim p s
  | .callExpiry k => Sys2Proof.Machine.execCallExpiry k s
  | .withdraw p tag => Sys2Proof.Machine.execWithdraw p tag s
  | .noticeAttempt f => Sys2Proof.Machine.execNoticeAttempt f s
  | .managementTake o => Sys2Proof.Machine.execManagementTake o s
  | .identify o => Sys2Proof.Machine.execIdentify o s
  | .readTable o => Sys2Proof.Machine.execReadTable o s
  | .writeTableRule o => Sys2Proof.Machine.execWriteTableRule o s
  | .writeTableService o => Sys2Proof.Machine.execWriteTableService o s
  | .writeTablePort o => Sys2Proof.Machine.execWriteTablePort o s
  | .writeTableQueue o => Sys2Proof.Machine.execWriteTableQueue o s
  | .writeTableGateway o => Sys2Proof.Machine.execWriteTableGateway o s
  | .clearTable o => Sys2Proof.Machine.execClearTable o s
  | .readState o => Sys2Proof.Machine.execReadState o s
  | .setPortState o => Sys2Proof.Machine.execSetPortState o s
  | .abortQueue o => Sys2Proof.Machine.execAbortQueue o s
  | .cancelCall o => Sys2Proof.Machine.execCancelCall o s
  | .readCall o => Sys2Proof.Machine.execReadCall o s
  | .readEvents o => Sys2Proof.Machine.execReadEvents o s
  | .readCounters o => Sys2Proof.Machine.execReadCounters o s
  | .probe o => Sys2Proof.Machine.execProbe o s
  | .restart o => Sys2Proof.Machine.execRestart o s
  | .restartAct => Sys2Proof.Machine.execRestartAct s
  | .characterRecognised p c => Sys2Proof.Machine.execCharacterRecognised p c s

end Sys2Proof.Machine
end

