-- ==== Sys2Proof/Machine/Step.lean ====
section
/-! DEFINITION. One step: the command at the front of the queue, or one microsecond where none waits. -/

namespace Sys2Proof.Machine

/-- A step on an empty queue: one microsecond passes (DESIGN CHOICE, log 3; R171), and none while reset is asserted (R173). -/
def State.tick (s : State) : State := if s.resetAsserted then s else s.elapse 1

/-- The command at the front of the queue is taken and run on the state with the queue's rest. -/
def step (s : State) : Host.Outcome State Fault Refusal :=
  match s.pending with
  | [] => .next s.tick
  | c :: cs => exec c { s with pending := cs }

/-- The command a word spells, put at the front of the queue; the table gives no row any bits, so no word spells one (log 21). -/
def State.withFetchWord (s : State) (nbits w : Nat) : State :=
  match decodeTableWord nbits w with
  | none => s
  | some c => { s with pending := c :: s.pending }

end Sys2Proof.Machine
end

