-- ==== Sys2Proof/WellFormed.lean ====
section
/-! DEFINITION. Which commands are well formed: what a command's operands must be for the step to be one the manual
knows. An ill-formed command still has a meaning in the machine (it changes nothing); no claim needs more. -/

namespace Sys2Proof

/-- R112: a FRAME is broken by anything other than a data character that comes before its end character. -/
def Interruption.breaks : Interruption → Bool
  | .character (.data _) => false
  | .character .endChar => false
  | _ => true

/-- R49: a tag whose low byte exceeds 127 names no record, so no withdraw carries it. -/
def namesRecord (t : Tag) : Bool := t.toNat % 256 ≤ 127

def Demand.wellFormed : Demand → Bool
  | .withdraw _ t => namesRecord t
  | _ => true

def Interleaving.wellFormed (o : Interleaving) : Bool := o.between.all Demand.wellFormed

/-- The check on a command's operands. -/
def Instr.wellFormed : Instr → Bool
  | .brokenFrame _ i => i.breaks
  | .withdraw _ t => namesRecord t
  | .managementTake o | .identify o | .readTable o | .writeTableRule o | .writeTableService o
  | .writeTablePort o | .writeTableQueue o | .writeTableGateway o | .clearTable o | .readState o
  | .setPortState o | .abortQueue o | .cancelCall o | .readCall o | .readEvents o | .readCounters o
  | .probe o | .restart o => o.wellFormed
  | .resetAssert | .resetRelease _ _ | .frameReceived _ _ | .ackReceived _ | .nakReceived _ _
  | .ackWindowExpiry _ | .strayAnswer _ _ | .holdReceived _ _ | .partnerHoldExpiry _ | .idleRun _
  | .lossOfSignal _ | .unrecognisedCharacter _ | .transmitterSymbolEnd _ | .frameSent _
  | .attemptStart _ | .intervalTimerExpiry _ _ | .holdResendExpiry _ | .decision _
  | .deliveredClaim _ | .undeliverableClaim _ | .targetPortDownClaim _ | .portDownClaim _
  | .callExpiry _ | .noticeAttempt _ | .restartAct | .characterRecognised _ _ => true

end Sys2Proof
end

