-- ==== Sys2Proof/Safety.lean ====
section
/-! DEFINITION. What the manual says always holds, as predicates on State that every step should keep. -/

namespace Sys2Proof.Machine

/-- R121, R120, R136: the error score is at most 255 and is 255 exactly when the port is ISOLATED; the tally is at most 64. -/
def ScoreTellsIsolation (s : State) : Prop :=
  ∀ p : Port, (s.port p).score ≤ Config.scoreCap
    ∧ ((s.port p).score = Config.scoreCap ↔ (s.port p).state = .isolated)
    ∧ (s.port p).recoveryTally ≤ Config.recoveryRuns

/-- R88, R106, R109: what a port out of service holds none of. -/
def PortSt.quiet (x : PortSt) : Prop :=
  x.allEntries = [] ∧ x.attempt = none ∧ x.intervals = Vector.replicate 4 none ∧ x.partnerHold = none
    ∧ x.ownHold = none ∧ x.control = []

/-- R88: every port out of service is quiet. -/
def OutOfServiceQuiet (s : State) : Prop := ∀ p : Port, (s.port p).state.inService = false → (s.port p).quiet

/-- R50: the free list holds each FREE record once and no record in use. -/
def FreeListExact (s : State) : Prop :=
  s.calls.freeList.Nodup ∧ ∀ i : CallIx, i ∈ s.calls.freeList ↔ (s.record i).state = .free

/-- The holders of buffer b at port p (R93): its frames awaiting decision and its queue entries. -/
def PortSt.holders (x : PortSt) (b : BufIx) : Nat :=
  x.awaiting.count b + x.allEntries.countP (fun e => e.buffer == some b)

/-- The holders of buffer b (R93). -/
def State.holders (s : State) (b : BufIx) : Nat :=
  (s.port 0).holders b + (s.port 1).holders b + (s.port 2).holders b + (s.port 3).holders b
    + s.mgmt.queue.countP (fun e => e.buffer == b)

/-- R93: a buffer's hold count equals the number of its holders. -/
def HoldsAreHolders (s : State) : Prop := ∀ b : BufIx, (s.buffer b).holds = s.holders b

/-- R26: no two valid service entries cover the same pair of station and service. -/
def KeysDisjoint (s : State) : Prop :=
  ∀ i j : SvcIx, i ≠ j → (s.service i).valid = true → (s.service j).valid = true →
    keysMeet (s.service i) (s.service j) = false

/-- R4: every rule block lies in the rule list, and no two blocks share an index. -/
def BlocksDisjoint (s : State) : Prop :=
  (∀ p : Port, (s.portRec p).ruleStart.toNat + (s.portRec p).ruleCount.toNat ≤ 256)
    ∧ ∀ p q : Port, p ≠ q → blocksMeet (s.portRec p) (s.portRec q) = false

/-- R2, R24, R140, R71, R161, R180: every stored record passes its own table's range checks, and its image reads back as it. -/
def TablesReadable (s : State) : Prop :=
  (∀ i : RuleIx, RuleEntry.ofImage (s.rule i).image = some (s.rule i))
    ∧ (∀ i : SvcIx, ServiceEntry.ofImage (s.service i).image = some (s.service i))
    ∧ (∀ p : Port, PortRec.ofImage (s.portRec p).image = some (s.portRec p))
    ∧ (∀ (p : Port) (q : DataQ), QueueRec.ofImage (s.queueRec p q).image = some (s.queueRec p q))
    ∧ Settings.ofImage s.settings.image = some s.settings

/-- R71, R144, R115: the fills the manual bounds. The idle mark that brings the count to 16 returns it to 0 in its act. -/
def FillsBounded (s : State) : Prop :=
  (∀ p : Port, (∀ q : DataQ, (look (s.port p).data q).length ≤ 64) ∧ (s.port p).gq.length ≤ Config.gDepth
      ∧ (s.port p).mq.length ≤ 32 ∧ (s.port p).idleCount < Config.idleRunLength)
    ∧ s.mgmt.queue.length ≤ Config.inputQueueEntries

/-- R79: the entry in transmission of a port is the head of its attempt's queue, and no other entry is. -/
def PortSt.oneInTransmission (x : PortSt) : Prop :=
  match x.attempt with
  | none => ∀ e ∈ x.allEntries, e.inTransmission = false
  | some a =>
    (x.queue a.queue).head?.map QueueEntry.inTransmission = some true
      ∧ x.allEntries.countP (fun e => e.inTransmission) = 1

def OneFrameInTransmission (s : State) : Prop := ∀ p : Port, (s.port p).oneInTransmission

/-- R179, R167: bits 15 and 52 to 63 of the event set belong to no flag and stay clear, and a flag whose notice attempt is still to
be made is set. -/
def EventSetInPlaces (s : State) : Prop :=
  s.events.flags &&& ~~~flagPlaces = 0 ∧ ∀ f ∈ s.wires.triggers, s.flagSet f = true

/-! ## Words the statements use -/

/-- A flag of the event set is set (R163). -/
def State.flagged (s : State) (f : Flag) : Prop := s.flagSet f = true

/-- From s to t the flags of `new` were set, and no other flag changed. -/
def FlagsBecome (s t : State) (new : Flag → Prop) : Prop := ∀ f, t.flagSet f = true ↔ s.flagSet f = true ∨ new f

/-- R103: port q is not HOLDING and its HOLD_MARK is reached by an occupancy. -/
def State.holdBegins (s : State) (q : Port) (occupied : Nat) : Prop :=
  (s.port q).ownHold = none ∧ (s.portRec q).holdMark ≠ 0 ∧ (s.portRec q).holdMark.toNat ≤ occupied

/-- R105: port q is HOLDING and its marks no longer keep it so at an occupancy. -/
def State.holdEnds (s : State) (q : Port) (occupied : Nat) : Prop :=
  (s.port q).ownHold ≠ none ∧ ((s.portRec q).holdMark = 0 ∨ occupied ≤ (s.portRec q).resumeMark.toNat)

/-- R103, R105: from s to t port q was judged once for own HOLDING, at an occupancy and behind the control symbols `before`. -/
def HoldJudged (s t : State) (q : Port) (before : List Control) (occupied : Nat) : Prop :=
  (s.holdBegins q occupied → (t.port q).ownHold = some ((s.portRec q).holdTime.toNat * 25)
      ∧ (t.port q).control = before ++ [.hold (s.portRec q).holdTime] ∧ t.flagged (.rise (.holding q)))
    ∧ (s.holdEnds q occupied → (t.port q).ownHold = none ∧ (t.port q).control = before ++ [.hold 0]
      ∧ t.flagged (.fall (.holding q)))
    ∧ (¬ s.holdBegins q occupied → ¬ s.holdEnds q occupied →
      (t.port q).ownHold = (s.port q).ownHold ∧ (t.port q).control = before)

/-- R94: a hold on the buffer b, if there is one, is the last on it. -/
def State.lastHold (s : State) (b : Option BufIx) : Prop := ∃ c, b = some c ∧ (s.buffer c).holds = 1

/-- R94, R103, R105, R106: the release of a last hold brings a judgement of own HOLDING to port q, which is in service. -/
def State.releaseJudges (s : State) (b : Option BufIx) (q : Port) : Prop :=
  ∃ c, b = some c ∧ (s.buffer c).holds = 1 ∧ (s.buffer c).origin = .port q ∧ (s.port q).state.inService = true

/-- R94, R103, R105, R106: from s to t one hold on the buffer b, if there is one, was released. Where it was the last, the port of
the buffer's origin, if it is in service, is judged for own HOLDING at the occupancy it leaves. -/
def HoldReleased (s t : State) (b : Option BufIx) : Prop :=
  (∀ c, b = some c → (t.buffer c).holds = (s.buffer c).holds - 1) ∧ (∀ c, b ≠ some c → t.buffer c = s.buffer c)
    ∧ (∀ q, s.releaseJudges b q → HoldJudged s t q (s.port q).control (s.occupancy q - 1))
    ∧ ∀ q, ¬ s.releaseJudges b q → (t.port q).ownHold = (s.port q).ownHold ∧ (t.port q).control = (s.port q).control

/-- R164, R165: the level flags that the release of a hold on the buffer b sets. -/
def State.releaseFlags (s : State) (b : Option BufIx) (f : Flag) : Prop :=
  (f = .fall .poolLow ∧ s.lastHold b ∧ s.freeCount = s.settings.lowMark.toNat)
    ∨ ∃ q, s.releaseJudges b q ∧ ((f = .rise (.holding q) ∧ s.holdBegins q (s.occupancy q - 1))
      ∨ (f = .fall (.holding q) ∧ s.holdEnds q (s.occupancy q - 1)))

/-- R88, R129, R64: from s to t the work of port p was ended: its queues, with the given call tags in them front to back, were
emptied with their holds, and so were its entries of the management input queue; behind the claims of s and those of `before`, each
request entry handed on a target port down claim and the port its port down claim. -/
def WorkFlushed (s t : State) (p : Port) (before : List Claim) (tags : List Tag) : Prop :=
  t.wires.claims = s.wires.claims ++ before ++ tags.map (Claim.targetPortDown p) ++ [.portDown p]
    ∧ t.mgmt.queue = s.mgmt.queue.filter (fun e => e.port != p)
    ∧ (∀ b : BufIx, (t.buffer b).holds = (s.buffer b).holds - ((s.port p).allEntries.countP (fun e => e.buffer == some b)
        + (s.mgmt.queue.filter (fun e => e.port == p)).countP (fun e => e.buffer == b)))
    ∧ ∀ r, (∃ e ∈ (s.port p).allEntries, e.restartReply = true) → s.mgmt.restart = .awaiting r → t.mgmt.restart = .reported r

/-- The command that takes a demand that waits. -/
def demandRow : Demand → Instr
  | .delivered p => .deliveredClaim p
  | .undeliverable p => .undeliverableClaim p
  | .targetPortDown p => .targetPortDownClaim p
  | .portDown p => .portDownClaim p
  | .withdraw p tag => .withdraw p tag
  | .notice f => .noticeAttempt f

/-- R129, R132: the FRAME under way as its port leaves or enters service without DISABLED: none, or passed over to its end. -/
def passedOver (r : Reception) : Reception := if r = .none then .none else .passingOver

/-- R109: what a transmitter sends as its port leaves service: a control symbol under way is finished (log 22), a FRAME is abandoned,
and otherwise it sends idle marks, or nothing on a DISABLED port. -/
def sentOnLeaving (target : PortState) : Symbol → Symbol
  | .control c => .control c
  | _ => if target = .disabled then .silent else .idleMark

/-- From s to t the demands of a list are taken by their commands, one after the other. -/
def RunsDemands : List Demand → State → State → Prop
  | [], s, t => t = s
  | d :: ds, s, t => ∃ u, exec (demandRow d) s = .next u ∧ RunsDemands ds u t

/-- The restart act is due (R175, R176). -/
def State.awaitsRestartAct (s : State) : Prop := ∃ p, s.mgmt.restart = .reported p

/-- The commands that set flags and neither make notice attempts nor read, enable or reset them. -/
def leavesTriggers : Instr → Bool
  | .deliveredClaim _ | .undeliverableClaim _ | .targetPortDownClaim _ | .portDownClaim _ | .callExpiry _ | .withdraw _ _ => true
  | .frameReceived _ _ | .brokenFrame _ _ | .ackReceived _ | .nakReceived _ _ | .ackWindowExpiry _ | .strayAnswer _ _
  | .holdReceived _ _ | .partnerHoldExpiry _ | .idleRun _ | .lossOfSignal _ | .unrecognisedCharacter _
  | .transmitterSymbolEnd _ | .frameSent _ | .attemptStart _ | .intervalTimerExpiry _ _ | .holdResendExpiry _
  | .decision _ | .characterRecognised _ _ => true
  | _ => false

/-- The values of section 10.3, item by item. -/
def HasResetValues (t : State) (gsn : Station) (bringup : Port) : Prop :=
  t.resetAsserted = false ∧ t.timeBase = 0
    ∧ (∀ i : RuleIx, t.rule i = RuleEntry.reset) ∧ (∀ i : SvcIx, t.service i = ServiceEntry.reset)
    ∧ (∀ p : Port, t.portRec p = PortRec.reset (p == bringup)) ∧ (∀ (p : Port) (q : DataQ), t.queueRec p q = ⟨16, 0⟩)
    ∧ t.settings = Settings.reset gsn bringup
    ∧ (∀ b : BufIx, (t.buffer b).holds = 0)
    ∧ (∀ i : CallIx, t.record i = CallRecord.reset) ∧ t.calls.freeList = List.finRange 128
    ∧ t.mgmt.queue = [] ∧ t.mgmt.restart = .clear
    ∧ t.wires.claims = [] ∧ t.wires.withdraws = [] ∧ t.wires.triggers = []
    ∧ t.events.flags = 0 ∧ t.events.armed = true ∧ t.events.capture = ⟨0, 255, 255, 0, .query, .ok, 65535⟩
    ∧ t.events.counters = ⟨0, 0, 0, 0, 0, 0⟩
    ∧ ∀ p : Port, (t.port p).state = (if p = bringup then .listen else .disabled)
      ∧ (t.port p).returnState = .listen ∧ (t.port p).recoveryTally = 0 ∧ (t.port p).score = 0
      ∧ (t.port p).linkUp = false ∧ (t.port p).idleCount = 0
      ∧ (t.port p).sending = (if p = bringup then .idleMark else .silent)
      ∧ (t.port p).quiet ∧ (t.port p).awaiting = [] ∧ (t.port p).counters = ⟨0, 0, 0, 0, 0, 0, 0⟩

/-- R111, R114: a FRAME whose end character arrives on port p is validated: the port receives, and it is not one it passes over. -/
def State.validatesFrame (s : State) (p : Port) : Prop :=
  s.resetAsserted = false ∧ s.receives p = true ∧ (s.port p).reception ≠ .passingOver

/-- R119: an answer that arrives on port p completes the attempt that sends the head e of queue q, with es behind it. No FRAME is
being collected, which the answer would break. -/
def State.answerCompletes (s : State) (p : Port) (q : QueueId) (e : QueueEntry) (es : List QueueEntry) : Prop :=
  s.receives p = true ∧ (s.port p).reception.isTaking = false
    ∧ (∃ a left, (s.port p).attempt = some a ∧ a.queue = q ∧ a.phase = .window left) ∧ s.queue p q = e :: es

/-- R81: the completions of port p that are failures, with what they raise the score by. -/
inductive FailsAttempt (s : State) (p : Port) (q : QueueId) (e : QueueEntry) (es : List QueueEntry) : Instr → Nat → Prop
  | nakCheck (h : s.answerCompletes p q e es) : FailsAttempt s p q e es (.nakReceived p .check) 8
  | nakFull (h : s.answerCompletes p q e es) : FailsAttempt s p q e es (.nakReceived p .full) 0
  | nakBusy (h : s.answerCompletes p q e es) : FailsAttempt s p q e es (.nakReceived p .busy) 0
  | windowRanOut (a : Attempt) (left : Nat) (serves : (s.port p).state.inService = true)
      (h : (s.port p).attempt = some a) (hq : a.queue = q) (hp : a.phase = .window left) (he : s.queue p q = e :: es) :
      FailsAttempt s p q e es (.ackWindowExpiry p) 8

/-- R112: what a command that tells of a single arrival on port p brings that breaks a FRAME; none for every other command. -/
def breakOf (p : Port) : Instr → Option Interruption
  | .characterRecognised q c => if q = p ∧ (Interruption.character c).breaks = true then some (.character c) else none
  | .unrecognisedCharacter q => if q = p then some .unrecognised else none
  | .lossOfSignal q => if q = p then some .lossOfSignal else none
  | .idleRun q => if q = p then some (.character .idleMark) else none
  | .ackReceived q | .nakReceived q _ | .strayAnswer q _ | .holdReceived q _ => if q = p then some (.character .control) else none
  | _ => none

/-- R112: the command c, which brings i, breaks the FRAME that port p is collecting. A loss of signal is declared only where a watch
runs (R116), and a STRAY_ANSWER has its occasion only where no attempt waits (R90). -/
def State.breaksHere (s : State) (p : Port) (c : Instr) (i : Interruption) : Prop :=
  breakOf p c = some i ∧ s.validatesFrame p ∧ (s.port p).reception.isTaking = true
    ∧ (i = .lossOfSignal → (s.port p).watch ≠ none) ∧ ((∃ a, c = .strayAnswer p a) → s.awaitsAnswer p = false)

/-- R111, R112, R81: the commands that raise port p's error score, with what they raise it by. -/
inductive RaisesScore (s : State) (p : Port) : Instr → Nat → Prop
  | badFrame (chars : List Byte) (h : s.validatesFrame p)
      (bad : goodFrame (State.collected (s.port p).reception chars).1 (State.collected (s.port p).reception chars).2 = false) :
      RaisesScore s p (.frameReceived p chars) 4
  | brokenFrame (i : Interruption) (hi : i.breaks = true) (h : s.validatesFrame p) : RaisesScore s p (.brokenFrame p i) 4
  | badEnd (h : s.validatesFrame p) (taking : (s.port p).reception ≠ .none)
      (bad : goodFrame (State.collected (s.port p).reception []).1 (State.collected (s.port p).reception []).2 = false) :
      RaisesScore s p (.characterRecognised p .endChar) 4
  | brokenHere (c : Instr) (i : Interruption) (h : s.breaksHere p c i) : RaisesScore s p c 4
  | failure (c : Instr) (q : QueueId) (e : QueueEntry) (es : List QueueEntry) (h : FailsAttempt s p q e es c 8) :
      RaisesScore s p c 8

/-- R96, checks 1 to 3: a frame for station dst is refused NAK BUSY. -/
def State.refusesBusy (s : State) (p : Port) (dst : Station) : Prop :=
  s.mgmt.restart ≠ .clear ∨ ((s.port p).state = .listen ∧ dst ≠ s.settings.gsn)
    ∨ (dst = s.settings.gsn ∧ Config.inputQueueEntries ≤ s.mgmt.queue.length)

/-- R76, R77: the order of the queues in arbitration, M after D3. -/
def queueRank : QueueId → Nat
  | .data q => q.val
  | .m => 4
  | .g => 5

/-- The matched rule of a settled decision. -/
def Settled.matchedRule : Settled → Option RuleIx
  | .unscanned => none
  | .noRule => none
  | .discard r => some r
  | .shortReply r => some r
  | .refusal r _ _ _ => some r
  | .matching r _ => some r
  | .forward r _ => some r

/-- A record after its call has ended (R52). -/
def freedRecord (r : CallRecord) : CallRecord := { r with state := .free, gen := r.gen + 1 }

/-- The G entry of a reply the gateway makes without a payload (R43, R66). -/
def emptyReply (ring : RingNo) (dst src : Station) (svc : Svc) (tag : Tag) (label : Half) (status : Byte) : QueueEntry where
  kind := .gateway
  header := ⟨.reply, ring, 7, dst, src, svc, 0, tag, label, status⟩
  buffer := none
  callTag := none
  attempts := 0
  oneShot := false
  noRetry := .none
  inTransmission := false
  trailer := none
  restartReply := false

/-- R66: the call reply of a call. -/
def callReplyEntry (r : CallRecord) (st : Status) : QueueEntry :=
  emptyReply r.reqRing r.reqStation r.addrStation r.addrSvc r.reqTag (natHalf r.via.val) st.code

/-- What the requester's side sees of a call reply (R67): it joins G of REQ_PORT, or it is lost and GW_REPLY_LOST is set. -/
def callReplySent (s t : State) (r : CallRecord) (st : Status) : Prop :=
  (s.accepts r.reqPort .g = true → t.queue r.reqPort .g = s.queue r.reqPort .g ++ [callReplyEntry r st])
    ∧ (s.accepts r.reqPort .g = false → t.queue r.reqPort .g = s.queue r.reqPort .g ∧ t.flagged (.event .gwReplyLost))

/-- The command that is an operation's own row of the table. -/
def rowOf : Operation → Interleaving → Instr
  | .identify, o => .identify o
  | .readTable, o => .readTable o
  | .writeRule, o => .writeTableRule o
  | .writeService, o => .writeTableService o
  | .writePort, o => .writeTablePort o
  | .writeQueue, o => .writeTableQueue o
  | .writeGateway, o => .writeTableGateway o
  | .clearTable, o => .clearTable o
  | .readState, o => .readState o
  | .setPortState, o => .setPortState o
  | .abortQueue, o => .abortQueue o
  | .cancelCall, o => .cancelCall o
  | .readCall, o => .readCall o
  | .readEvents, o => .readEvents o
  | .readCounters, o => .readCounters o
  | .probe, o => .probe o
  | .restart, o => .restart o

/-- The management unit's head e runs the operation op (R145 to R147), and the gateway is not held in reset. -/
def State.runs (s : State) (e : MgmtEntry) (op : Operation) : Prop :=
  s.resetAsserted = false ∧ s.judgeHead = .run e op

/-- A refused request: it changes no state and is answered with its status and an empty payload (R147). -/
def Executed.isRefusal (x : Executed) (s : State) (st : Status) : Prop := x.state = s ∧ x.status = st ∧ x.payload = []

/-- The commands that may write the tables. -/
def writesTables : Instr → Bool
  | .resetRelease _ _ | .restartAct | .managementTake _ | .writeTableRule _ | .writeTableService _ | .writeTablePort _
  | .writeTableQueue _ | .writeTableGateway _ | .clearTable _ => true
  | _ => false

/-- The commands that may write the last-refusal capture (R166). -/
def writesCapture : Instr → Bool
  | .resetRelease _ _ | .restartAct | .decision _ => true
  | _ => false

/-- The commands that never reach a call record. -/
def leavesCalls : Instr → Bool
  | .resetAssert | .partnerHoldExpiry _ | .transmitterSymbolEnd _ | .frameSent _ | .attemptStart _
  | .intervalTimerExpiry _ _ | .holdResendExpiry _ | .withdraw _ _ | .noticeAttempt _ => true
  | _ => false

/-- The commands that tell that time has passed (log 4), or that reset the time base. -/
def movesTime : Instr → Bool
  | .resetRelease _ _ | .restartAct | .brokenFrame _ .lossOfSignal | .lossOfSignal _ | .ackWindowExpiry _
  | .partnerHoldExpiry _ | .intervalTimerExpiry _ _ | .holdResendExpiry _ | .callExpiry _ => true
  | _ => false

/-- The commands that may change what a buffer holds besides its hold count. -/
def fillsBuffers : Instr → Bool
  | .resetRelease _ _ | .restartAct | .frameReceived _ _ | .characterRecognised _ .endChar | .noticeAttempt _ | .managementTake _
  | .identify _ | .readTable _
  | .writeTableRule _ | .writeTableService _ | .writeTablePort _ | .writeTableQueue _ | .writeTableGateway _ | .clearTable _
  | .readState _ | .setPortState _ | .abortQueue _ | .cancelCall _ | .readCall _ | .readEvents _ | .readCounters _ | .probe _
  | .restart _ => true
  | _ => false

/-- The port a command of the link, the scheduler or the decision unit is about. -/
def portOfCommand : Instr → Option Port
  | .frameReceived p _ | .brokenFrame p _ | .ackReceived p | .nakReceived p _ | .ackWindowExpiry p | .strayAnswer p _
  | .holdReceived p _ | .partnerHoldExpiry p | .idleRun p | .lossOfSignal p | .unrecognisedCharacter p
  | .transmitterSymbolEnd p | .frameSent p | .attemptStart p | .intervalTimerExpiry p _ | .holdResendExpiry p
  | .decision p | .characterRecognised p _ => some p
  | _ => none

end Sys2Proof.Machine
end

