-- ==== Sys2Proof/Certificates/Slice0/Obligations.lean ====
section
/-! DEFINITION. The statements for the provers. -/

open Sys2Proof Sys2Proof.Machine

/-! ## Steps, resets and frames -/

/-- A step takes the command at the front of the queue and runs it on the state with the queue's rest. Every command answers a next
state: none ends in a fault or a refusal, and none touches the commands that wait. -/
def Obligations.StepTakesFrontCommand : Prop :=
  (∀ (c : Instr) (cs : List Instr) (s : State), s.pending = c :: cs → step s = exec c { s with pending := cs })
  ∧ ∀ (c : Instr) (s : State), ∃ t, exec c s = .next t ∧ t.pending = s.pending

/-- The model's choice (log 3): a step on an empty queue lets one microsecond pass. The time base advances (R171) and every
timer of every port runs on. While reset is asserted nothing is taken and the time base stands (R173). -/
def Obligations.EmptyQueueStepPassesTime : Prop :=
  (∀ s : State, s.pending = [] → s.resetAsserted = false → ∃ t, step s = .next t
    ∧ t.timeBase = s.timeBase + 1 ∧ t.pending = [] ∧ t.tables = s.tables ∧ t.pool = s.pool ∧ t.calls = s.calls
    ∧ t.wires = s.wires ∧ t.mgmt = s.mgmt ∧ t.events = s.events
    ∧ ∀ p : Port, (t.port p).state = (s.port p).state ∧ (t.port p).score = (s.port p).score
      ∧ (t.port p).linkUp = (s.port p).linkUp ∧ (t.port p).control = (s.port p).control
      ∧ (∀ q : QueueId, t.queue p q = s.queue p q) ∧ (t.port p).awaiting = (s.port p).awaiting
      ∧ (t.port p).partnerHold = (s.port p).partnerHold.map (· - 1)
      ∧ (t.port p).ownHold = (s.port p).ownHold.map (· - 1)
      ∧ (t.port p).watch = (s.port p).watch.map (· - 1)
      ∧ (∀ q : DataQ, look (t.port p).intervals q = (look (s.port p).intervals q).map (· - 1))
      ∧ ∀ a left, (s.port p).attempt = some a → a.phase = .window left →
          (t.port p).attempt = some { a with phase := .window (left - 1) })
  ∧ ∀ s : State, s.resetAsserted = true → (s.pending = [] → step s = .next s)
    ∧ ∀ c : Instr, c ≠ .resetAssert → (∀ b n, c ≠ .resetRelease b n) → exec c s = .next s

/-- Only management requests, the release of the reset pin and the restart act write the tables and settings (R151); only
decisions and the two resets write the last-refusal capture (R166); the commands of the transmitter, the scheduler's timers, a
withdraw and a notice leave the call records; and only arrivals, notices, management takes and the two resets change what a buffer
holds besides its hold count (R92, R94). That, among the commands, the time base moves only with an expiry, a loss of signal and the
two resets is the model's choice (log 4; the time that passes in a step on an empty queue is log 3), where R171 has it advance every
microsecond. -/
def Obligations.PartsWrittenOnlyByTheirOwners : Prop :=
  (∀ (c : Instr) (s : State), writesTables c = false → ∃ t, exec c s = .next t ∧ t.tables = s.tables)
  ∧ (∀ (c : Instr) (s : State), writesCapture c = false → ∃ t, exec c s = .next t
    ∧ t.events.capture = s.events.capture)
  ∧ (∀ (c : Instr) (s : State), leavesCalls c = true → ∃ t, exec c s = .next t ∧ t.calls = s.calls)
  ∧ (∀ (c : Instr) (s : State), movesTime c = false → ∃ t, exec c s = .next t ∧ t.timeBase = s.timeBase)
  ∧ ∀ (c : Instr) (s : State), fillsBuffers c = false → ∃ t, exec c s = .next t
    ∧ ∀ b : BufIx, { t.buffer b with holds := 0 } = { s.buffer b with holds := 0 }

/-- A command of port p's link, scheduler or decisions leaves every other port's own state, score, line, receiver, transmitter,
waiting frames and counters as they were. -/
def Obligations.OtherPortsKeepTheirOwnState : Prop :=
  ∀ (c : Instr) (p : Port) (s : State), portOfCommand c = some p → ∃ t, exec c s = .next t
    ∧ ∀ q : Port, q ≠ p → (t.port q).state = (s.port q).state ∧ (t.port q).returnState = (s.port q).returnState
      ∧ (t.port q).recoveryTally = (s.port q).recoveryTally ∧ (t.port q).score = (s.port q).score
      ∧ (t.port q).linkUp = (s.port q).linkUp ∧ (t.port q).idleCount = (s.port q).idleCount
      ∧ (t.port q).reception = (s.port q).reception ∧ (t.port q).sending = (s.port q).sending
      ∧ (t.port q).awaiting = (s.port q).awaiting ∧ (t.port q).counters = (s.port q).counters

/-- The model's reset state, of straps BRINGUP 0 and STN 0 (log 1), has the values of section 10.3, and every invariant stated
below holds in it. -/
def Obligations.ResetStateHasResetValues : Prop :=
  (HasResetValues State.reset 240 0 ∧ State.reset.pending = [] ∧ ∀ p : Port, (State.reset.port p).reception = .none)
  ∧ KeysDisjoint State.reset ∧ BlocksDisjoint State.reset ∧ TablesReadable State.reset ∧ ScoreTellsIsolation State.reset
  ∧ OutOfServiceQuiet State.reset ∧ FreeListExact State.reset ∧ HoldsAreHolders State.reset
  ∧ OneFrameInTransmission State.reset ∧ EventSetInPlaces State.reset ∧ FillsBounded State.reset

/-- R173, R174: the assertion of the reset pin silences every port and loses the frames it was sending or receiving; the release
samples the straps and gives every item its reset value, with GSN 240 + s. That the other items stand until the release is the
model's choice (log 18), and so is that a release acts alike with no assertion before it (log 19). R176: once the report about the
RESTART reply has come, the restart act gives every item its reset value, with the GSN kept and the RESTART's arrival port as
bring-up port; that the command changes nothing before that report is the model's choice (log 7), and so is that a control symbol
already begun is cut at the act (log 31). -/
def Obligations.ResetsGiveResetValues : Prop :=
  (∀ s : State, ∃ t, exec .resetAssert s = .next t ∧ t.resetAsserted = true ∧ t.timeBase = s.timeBase
    ∧ t.tables = s.tables ∧ t.pool = s.pool ∧ t.calls = s.calls ∧ t.wires = s.wires ∧ t.mgmt = s.mgmt ∧ t.events = s.events
    ∧ ∀ p : Port, (t.port p).sending = .silent ∧ (t.port p).reception = .none ∧ (t.port p).attempt = none
      ∧ (∀ e ∈ (t.port p).allEntries, e.inTransmission = false) ∧ (t.port p).state = (s.port p).state
      ∧ (t.port p).score = (s.port p).score ∧ (t.port p).counters = (s.port p).counters)
  ∧ (∀ (s : State) (b : Port) (n : BitVec 3), ∃ t, exec (.resetRelease b n) s = .next t
    ∧ HasResetValues t (240 + n.setWidth 8) b ∧ ∀ p : Port, (t.port p).reception = .none)
  ∧ (∀ (s : State) (p : Port), s.resetAsserted = false → s.mgmt.restart = .reported p →
    ∃ t, exec .restartAct s = .next t ∧ HasResetValues t s.settings.gsn p
      ∧ ∀ q : Port, (t.port q).reception = if q = p then receptionClosed (s.port p).reception else .none)
  ∧ ∀ s : State, (∀ p, s.mgmt.restart ≠ .reported p) → exec .restartAct s = .next s

/-! ## The receiver and admission -/

/-- R111, R97: a good frame that passes the checks of R96 is admitted: a free buffer takes it, the port answers ACK, RX_GOOD
rises, the score falls, and the frame joins the management input queue or the frames awaiting decision. The port is then judged for
own HOLDING at the occupancy the frame gives it (R103, R105). The flags it sets are the RISE of POOL_LOW where the free count comes
down to LOW_MARK, the FALL of WARN where the score comes down from 96, and those of HOLDING (R122, R164, R165). -/
def Obligations.GoodFrameIsAdmitted : Prop :=
  ∀ (s : State) (p : Port) (chars : List Byte), s.validatesFrame p →
    let k := State.collected (s.port p).reception chars
    let dst := (Header.decode (k.1.take 11)).dst
    goodFrame k.1 k.2 = true → ¬ s.refusesBusy p dst → s.settings.reserve.toNat < s.freeCount →
    s.occupancy p < (s.portRec p).quota.toNat →
    ∃ t b, exec (.frameReceived p chars) s = .next t ∧ (s.buffer b).holds = 0
      ∧ t.buffer b = ⟨1, .port p, k.1.take 11, (k.1.drop 11).take (k.2 - 13), s.timeBase⟩
      ∧ (∀ c : BufIx, c ≠ b → t.buffer c = s.buffer c)
      ∧ t.freeCount + 1 = s.freeCount ∧ t.occupancy p = s.occupancy p + 1
      ∧ HoldJudged s t p ((s.port p).control ++ [.answer .ack]) (s.occupancy p + 1)
      ∧ FlagsBecome s t (fun f => (f = .rise .poolLow ∧ s.freeCount = s.settings.lowMark.toNat + 1)
        ∨ (f = .fall (.warn p) ∧ (s.port p).score = 96)
        ∨ (f = .rise (.holding p) ∧ s.holdBegins p (s.occupancy p + 1))
        ∨ (f = .fall (.holding p) ∧ s.holdEnds p (s.occupancy p + 1)))
      ∧ (t.port p).counters = { (s.port p).counters with rxGood := (s.port p).counters.rxGood + 1 }
      ∧ (t.port p).score = (s.port p).score - 1 ∧ (t.port p).state = (s.port p).state
      ∧ t.mgmt.queue = s.mgmt.queue ++ (if dst = s.settings.gsn then [⟨p, b⟩] else [])
      ∧ (t.port p).awaiting = (s.port p).awaiting ++ (if dst = s.settings.gsn then [] else [b])
      ∧ (∀ q : QueueId, t.queue p q = s.queue p q) ∧ t.calls = s.calls
      ∧ ∀ q : Port, q ≠ p → t.port q = s.port q

/-- R96, R98: a good frame refused by admission is answered NAK BUSY for checks 1 to 3 and NAK FULL for checks 4 and 5; no
buffer is taken, no score changes, and only check 4 sets ADMIT_REFUSED. -/
def Obligations.FrameRefusedByAdmission : Prop :=
  ∀ (s : State) (p : Port) (chars : List Byte), s.validatesFrame p →
    let k := State.collected (s.port p).reception chars
    let dst := (Header.decode (k.1.take 11)).dst
    let c := (s.port p).counters
    goodFrame k.1 k.2 = true →
    (s.refusesBusy p dst → ∃ t, exec (.frameReceived p chars) s = .next t ∧ t.pool = s.pool ∧ t.mgmt = s.mgmt
      ∧ t.events = s.events ∧ t.wires = s.wires ∧ (t.port p).control = (s.port p).control ++ [.answer (.nak .busy)]
      ∧ (t.port p).counters = { c with nakBusySent := c.nakBusySent + 1 } ∧ (t.port p).score = (s.port p).score
      ∧ (t.port p).awaiting = (s.port p).awaiting)
    ∧ (¬ s.refusesBusy p dst → s.freeCount ≤ s.settings.reserve.toNat →
      ∃ t, exec (.frameReceived p chars) s = .next t ∧ t.pool = s.pool ∧ t.mgmt = s.mgmt
      ∧ t.flagged (.event .admitRefused) ∧ (t.port p).control = (s.port p).control ++ [.answer (.nak .full)]
      ∧ (t.port p).counters = { c with nakFullSent := c.nakFullSent + 1 } ∧ (t.port p).score = (s.port p).score
      ∧ (t.port p).awaiting = (s.port p).awaiting)
    ∧ (¬ s.refusesBusy p dst → s.settings.reserve.toNat < s.freeCount →
      (s.portRec p).quota.toNat ≤ s.occupancy p → ∃ t, exec (.frameReceived p chars) s = .next t ∧ t.pool = s.pool
      ∧ t.mgmt = s.mgmt ∧ t.events = s.events ∧ t.wires = s.wires
      ∧ (t.port p).control = (s.port p).control ++ [.answer (.nak .full)]
      ∧ (t.port p).counters = { c with nakFullSent := c.nakFullSent + 1 } ∧ (t.port p).score = (s.port p).score
      ∧ (t.port p).awaiting = (s.port p).awaiting)

/-- R111, R112: a bad frame and a broken one are answered NAK CHECK, raise RX_CHECK by 1 and the score by 4 (here below its cap),
and take no buffer; what broke a FRAME is then taken for what it is. So it is where the commands of single arrivals break the FRAME
being collected: a character that is no data character, an unrecognised character, an idle run, a loss of signal, and the control
character of an answer or a HOLD, which is then taken as after it. They set no flag but the RISE of WARN where the score comes up to
96 (R122), and the FALL of LINK_UP for a loss of signal (R116). -/
def Obligations.BadAndBrokenFramesAnsweredNakCheck : Prop :=
  (∀ (s : State) (p : Port) (chars : List Byte), s.validatesFrame p →
    goodFrame (State.collected (s.port p).reception chars).1 (State.collected (s.port p).reception chars).2 = false →
    (s.port p).score + 4 < 255 →
    ∃ t, exec (.frameReceived p chars) s = .next t ∧ t.pool = s.pool ∧ t.mgmt = s.mgmt
      ∧ (t.port p).control = (s.port p).control ++ [.answer (.nak .check)] ∧ (t.port p).score = (s.port p).score + 4
      ∧ (t.port p).counters = { (s.port p).counters with rxCheck := (s.port p).counters.rxCheck + 1 }
      ∧ (t.port p).reception = .none ∧ (t.port p).awaiting = (s.port p).awaiting
      ∧ FlagsBecome s t (fun f => f = .rise (.warn p) ∧ (s.port p).score < 96 ∧ 96 ≤ (s.port p).score + 4))
  ∧ (∀ (s : State) (p : Port) (i : Interruption), i.breaks = true → s.validatesFrame p → (s.port p).score + 4 < 255 →
    ∃ t, exec (.brokenFrame p i) s = .next t ∧ t.pool = s.pool ∧ t.mgmt = s.mgmt
      ∧ (t.port p).control = (s.port p).control ++ [.answer (.nak .check)] ∧ (t.port p).score = (s.port p).score + 4
      ∧ (t.port p).counters = { (s.port p).counters with rxCheck := (s.port p).counters.rxCheck + 1 }
      ∧ (t.port p).reception = (if i = .character .start then .taking [] 0 else .none)
      ∧ (t.port p).idleCount = (if i = .character .idleMark then 1 else 0)
      ∧ (t.port p).linkUp = (i != .lossOfSignal)
      ∧ FlagsBecome s t (fun f => (f = .rise (.warn p) ∧ (s.port p).score < 96 ∧ 96 ≤ (s.port p).score + 4)
        ∨ (f = .fall (.linkUp p) ∧ i = .lossOfSignal)))
  ∧ (∀ (s : State) (p : Port) (c : Instr) (i : Interruption), s.breaksHere p c i →
    i ≠ .character .control ∨ c = .characterRecognised p .control → (s.port p).score + 4 < 255 →
    ∃ t, exec c s = .next t ∧ t.pool = s.pool ∧ t.mgmt = s.mgmt ∧ (t.port p).awaiting = (s.port p).awaiting
      ∧ (t.port p).control = (s.port p).control ++ [.answer (.nak .check)] ∧ (t.port p).score = (s.port p).score + 4
      ∧ (t.port p).counters = { (s.port p).counters with rxCheck := (s.port p).counters.rxCheck + 1 }
      ∧ (t.port p).reception = (if i = .character .start then .taking [] 0 else .none)
      ∧ (t.port p).linkUp = (i != .lossOfSignal)
      ∧ FlagsBecome s t (fun f => (f = .rise (.warn p) ∧ (s.port p).score < 96 ∧ 96 ≤ (s.port p).score + 4)
        ∨ (f = .fall (.linkUp p) ∧ i = .lossOfSignal)))
  ∧ ∀ (s : State) (p : Port) (c : Instr), s.breaksHere p c (.character .control) →
    ∃ u, exec (.characterRecognised p .control) s = .next u ∧ exec c s = exec c u

/-! ## Completions and the error score -/

/-- R80: an ACK within the ack window removes the head, raises TX_OK, hands on the delivered claim, starts the interval timer and
lowers the score; the RESTART reply's leaving is reported (R83). The entry's hold is released, and where it was the last, the port
of the buffer's origin is judged for own HOLDING if it is in service (R94, R103, R105, R106). The flags it sets are those of that
release and the FALL of WARN where the score comes down from 96 (R122, R164, R165). -/
def Obligations.AckCompletesAttempt : Prop :=
  ∀ (s : State) (p : Port) (q : QueueId) (e : QueueEntry) (es : List QueueEntry), s.resetAsserted = false →
    s.answerCompletes p q e es →
    ∃ t, exec (.ackReceived p) s = .next t ∧ (t.port p).attempt = none ∧ t.queue p q = es
      ∧ (∀ r : QueueId, r ≠ q → t.queue p r = s.queue p r)
      ∧ (t.port p).counters = { (s.port p).counters with txOk := (s.port p).counters.txOk + 1 }
      ∧ (t.port p).score = (s.port p).score - 1 ∧ (t.port p).state = (s.port p).state
      ∧ t.wires.claims = s.wires.claims ++ (e.callTag.map (Claim.delivered p)).toList
      ∧ (∀ d : DataQ, look (t.port p).intervals d = if q = .data d then
          (if (s.queueRec p d).interval = 0 then none else some ((s.queueRec p d).interval.toNat * 10))
          else look (s.port p).intervals d)
      ∧ HoldReleased s t e.buffer
      ∧ FlagsBecome s t (fun f => s.releaseFlags e.buffer f ∨ (f = .fall (.warn p) ∧ (s.port p).score = 96))
      ∧ (∀ r, e.restartReply = true → s.mgmt.restart = .awaiting r → t.mgmt.restart = .reported r)
      ∧ t.calls = s.calls ∧ t.mgmt.queue = s.mgmt.queue

/-- R81, R82: a failure whose entry is kept raises TX_FAIL and the entry's attempts, leaves it the head, and raises the score as
the completion says (here below its cap), with the RISE of WARN where it comes up to 96 (R122). -/
def Obligations.FailureKeepsEntry : Prop :=
  ∀ (s : State) (p : Port) (q : QueueId) (e : QueueEntry) (es : List QueueEntry) (c : Instr) (raised : Nat),
    s.resetAsserted = false → FailsAttempt s p q e es c raised → (s.port p).score + raised < 255 →
    e.oneShot = false → e.noRetry = .none → e.attempts + 1 ≤ (s.portRec p).retry.toNat →
    ∃ t, exec c s = .next t ∧ (t.port p).attempt = none
      ∧ t.queue p q = { e with inTransmission := false, attempts := e.attempts + 1 } :: es
      ∧ (∀ r : QueueId, r ≠ q → t.queue p r = s.queue p r)
      ∧ (t.port p).counters = { (s.port p).counters with txFail := (s.port p).counters.txFail + 1 }
      ∧ (t.port p).score = (s.port p).score + raised ∧ (t.port p).state = (s.port p).state
      ∧ FlagsBecome s t (fun f => f = .rise (.warn p) ∧ (s.port p).score < 96 ∧ 96 ≤ (s.port p).score + raised)
      ∧ t.wires.claims = s.wires.claims ∧ t.pool = s.pool ∧ t.calls = s.calls ∧ t.mgmt = s.mgmt

/-- R81 to R83: a failure whose entry is ONE_SHOT, marked NO_RETRY or past RETRY drops it: it leaves its queue, TX_DROPPED rises,
and a request's drop is claimed undeliverable, stating an abort when its mark is ABORT. The entry's hold is released, with the
judgement of own HOLDING that the last one brings (R94, R103, R105, R106; stated for the completions by an answer, in which no time
passes). The flags it sets are those of that release and the RISE of WARN where the score comes up to 96 (R122, R164, R165). -/
def Obligations.FailureDropsEntry : Prop :=
  ∀ (s : State) (p : Port) (q : QueueId) (e : QueueEntry) (es : List QueueEntry) (c : Instr) (raised : Nat),
    s.resetAsserted = false → FailsAttempt s p q e es c raised → (s.port p).score + raised < 255 →
    (e.oneShot = true ∨ e.noRetry ≠ .none ∨ (s.portRec p).retry.toNat < e.attempts + 1) →
    ∃ t, exec c s = .next t ∧ (t.port p).attempt = none ∧ t.queue p q = es
      ∧ (∀ r : QueueId, r ≠ q → t.queue p r = s.queue p r)
      ∧ (t.port p).counters = { (s.port p).counters with
          txFail := (s.port p).counters.txFail + 1, txDropped := (s.port p).counters.txDropped + 1 }
      ∧ (t.port p).score = (s.port p).score + raised ∧ (t.port p).state = (s.port p).state
      ∧ t.wires.claims = s.wires.claims ++ (e.callTag.map (fun tag => Claim.undeliverable p tag (e.noRetry == .abort))).toList
      ∧ (∀ b, e.buffer = some b → (t.buffer b).holds = (s.buffer b).holds - 1)
      ∧ (∀ b, e.buffer ≠ some b → t.buffer b = s.buffer b)
      ∧ (c ≠ .ackWindowExpiry p → HoldReleased s t e.buffer)
      ∧ FlagsBecome s t (fun f => s.releaseFlags e.buffer f
        ∨ (f = .rise (.warn p) ∧ (s.port p).score < 96 ∧ 96 ≤ (s.port p).score + raised))
      ∧ (∀ r, e.restartReply = true → s.mgmt.restart = .awaiting r → t.mgmt.restart = .reported r)
      ∧ t.calls = s.calls ∧ t.mgmt.queue = s.mgmt.queue

/-- R121, R135, R88, R129: an increase that brings the score to 255 isolates the port in the same act: its work ends, its entries
leave the management input queue, HOLDING falls without HOLD 0 (R106), and a port down claim is handed on. Where no demand of an
earlier leaving waits, the flush releases each entry's hold and hands on, before the port down claim, a target port down claim for
each request entry in the queues; a failure has kept or dropped its own entry before (R121). The FRAME under way is passed over
(R129), but for one that the command itself ends; the transmitter abandons its FRAME and sends idle marks, a control symbol under way
being finished first by the model's DEDUCED reading of R109 (log 22); the link-up state, the counters and the frames awaiting
decision stay (R129 to R131), but for what the command itself brings. -/
def Obligations.ScoreAtCapIsolates : Prop :=
  (∀ (s : State) (p : Port) (c : Instr) (raised : Nat), s.resetAsserted = false → (s.port p).state.inService = true →
    RaisesScore s p c raised → 255 ≤ (s.port p).score + raised →
    ∃ t, exec c s = .next t ∧ (t.port p).state = .isolated ∧ (t.port p).score = 255
      ∧ (t.port p).recoveryTally = (if c = .idleRun p ∨ (c = .characterRecognised p .idleMark ∧ 15 ≤ (s.port p).idleCount)
          then 1 else 0)
      ∧ (t.port p).reception = (if c = .ackWindowExpiry p then passedOver (s.port p).reception
          else if c = .characterRecognised p .start ∨ c = .brokenFrame p (.character .start) then .passingOver else .none)
      ∧ (t.port p).sending = sentOnLeaving .isolated (s.port p).sending ∧ (t.port p).awaiting = (s.port p).awaiting
      ∧ (t.port p).linkUp = ((s.port p).linkUp && c != .lossOfSignal p && c != .brokenFrame p .lossOfSignal)
      ∧ (t.port p).counters = (if raised = 4 then { (s.port p).counters with rxCheck := (s.port p).counters.rxCheck + 1 }
          else { (s.port p).counters with txFail := (s.port p).counters.txFail + 1, txDropped := (t.port p).counters.txDropped })
      ∧ (t.port p).returnState = (if (s.port p).state = .forward then .forward else .listen) ∧ (t.port p).quiet
      ∧ .portDown p ∈ t.wires.claims ∧ (∀ e ∈ t.mgmt.queue, e.port ≠ p) ∧ t.flagged (.rise (.isolated p))
      ∧ ((s.port p).ownHold ≠ none → t.flagged (.fall (.holding p))))
  ∧ (∀ (s : State) (p : Port) (c : Instr), s.resetAsserted = false → RaisesScore s p c 4 → 255 ≤ (s.port p).score + 4 →
    (∀ d ∈ s.wires.claims, d.isLeaving p = false) →
    ∃ t, exec c s = .next t ∧ WorkFlushed s t p [] ((s.port p).allEntries.filterMap QueueEntry.callTag))
  ∧ ∀ (s : State) (p : Port) (q : QueueId) (e : QueueEntry) (es : List QueueEntry) (c : Instr), s.resetAsserted = false →
    FailsAttempt s p q e es c 8 → 255 ≤ (s.port p).score + 8 → (∀ d ∈ s.wires.claims, d.isLeaving p = false) →
    let dropped := e.oneShot = true ∨ e.noRetry ≠ .none ∨ (s.portRec p).retry.toNat < e.attempts + 1
    (¬ dropped → ∃ t, exec c s = .next t ∧ WorkFlushed s t p [] ((s.port p).allEntries.filterMap QueueEntry.callTag))
    ∧ (dropped → ∃ t, exec c s = .next t
      ∧ WorkFlushed s t p (e.callTag.map (fun tag => Claim.undeliverable p tag (e.noRetry == .abort))).toList
          (((s.port p).setQueue q es).allEntries.filterMap QueueEntry.callTag))

/-- R90, R86, R114, R78: an answer that no attempt waits for completes none; a HOLD received in service with the link UP starts,
changes or ends the partner HOLD, and has no effect otherwise; the partner HOLD and the interval timers run out at the end of their
time. That the expiry itself lets the time still left pass is the model's choice (log 4), and so is that the expiry of a partner HOLD
or of an interval timer that does not run changes nothing (log 7). -/
def Obligations.StrayAnswersHoldsAndIntervals : Prop :=
  (∀ (s : State) (p : Port) (a : Answer), s.resetAsserted = false → s.awaitsAnswer p = false →
    (s.port p).reception.isTaking = false →
    ∃ t, exec (.strayAnswer p a) s = .next t ∧ (t.port p).attempt = (s.port p).attempt
      ∧ (∀ q : QueueId, t.queue p q = s.queue p q) ∧ (t.port p).counters = (s.port p).counters
      ∧ (t.port p).score = (s.port p).score ∧ (t.port p).state = (s.port p).state ∧ t.pool = s.pool
      ∧ t.calls = s.calls ∧ t.wires = s.wires ∧ t.mgmt = s.mgmt ∧ t.events = s.events)
  ∧ (∀ (s : State) (p : Port) (d : Byte), s.resetAsserted = false → s.receives p = true →
    (s.port p).reception.isTaking = false → ∃ t, exec (.holdReceived p d) s = .next t
      ∧ (t.port p).partnerHold = (if d = 0 then none else some (d.toNat * 50))
      ∧ (t.port p).attempt = (s.port p).attempt ∧ (∀ q : QueueId, t.queue p q = s.queue p q))
  ∧ (∀ (s : State) (p : Port) (d : Byte), s.resetAsserted = false → s.receives p = false →
    ∃ t, exec (.holdReceived p d) s = .next t ∧ (t.port p).partnerHold = (s.port p).partnerHold
      ∧ (t.port p).attempt = (s.port p).attempt ∧ (∀ q : QueueId, t.queue p q = s.queue p q))
  ∧ (∀ (s : State) (p : Port) (left : Nat), s.resetAsserted = false → (s.port p).partnerHold = some left →
    ∃ t, exec (.partnerHoldExpiry p) s = .next t ∧ (t.port p).partnerHold = none
      ∧ t.timeBase = s.timeBase + BitVec.ofNat 32 left ∧ (∀ q : QueueId, t.queue p q = s.queue p q))
  ∧ (∀ (s : State) (p : Port), (s.port p).partnerHold = none → exec (.partnerHoldExpiry p) s = .next s)
  ∧ (∀ (s : State) (p : Port) (q : DataQ) (left : Nat), s.resetAsserted = false →
    look (s.port p).intervals q = some left → ∃ t, exec (.intervalTimerExpiry p q) s = .next t
      ∧ look (t.port p).intervals q = none ∧ t.timeBase = s.timeBase + BitVec.ofNat 32 left
      ∧ (∀ r : DataQ, r ≠ q → look (t.port p).intervals r = (look (s.port p).intervals r).map (· - left))
      ∧ (∀ r : QueueId, t.queue p r = s.queue p r))
  ∧ ∀ (s : State) (p : Port) (q : DataQ), look (s.port p).intervals q = none →
    exec (.intervalTimerExpiry p q) s = .next s

/-- R104: each expiry of the re-send timer sends one more HOLD with HOLD_TIME as it stands and starts the timer for half the
duration sent, at most 6375 µs, whatever the port state in service and the link; a write of the PORT record and a loss of signal
leave the running timer to run on. How time passes is the model's choice: the expiry and the loss of signal let the time they still
have pass (log 4), and a step on an empty queue lets one microsecond pass in every state (log 3). -/
def Obligations.OwnHoldIsResent : Prop :=
  (∀ (s : State) (p : Port) (left : Nat), s.resetAsserted = false → (s.port p).ownHold = some left →
    ∃ t, exec (.holdResendExpiry p) s = .next t
      ∧ (t.port p).control = (s.port p).control ++ [.hold (s.portRec p).holdTime]
      ∧ (t.port p).ownHold = some ((s.portRec p).holdTime.toNat * 25) ∧ (s.portRec p).holdTime.toNat * 25 ≤ 6375
      ∧ t.timeBase = s.timeBase + BitVec.ofNat 32 left ∧ (∀ q : QueueId, t.queue p q = s.queue p q))
  ∧ (∀ (s : State) (q : Request) (p : Port), ((opWritePort s q).state.port p).ownHold = (s.port p).ownHold)
  ∧ (∀ (s : State) (p : Port) (left : Nat), s.resetAsserted = false → (s.port p).state ≠ .disabled →
    (s.port p).state ≠ .isolated → (s.port p).reception.isTaking = false → (s.port p).watch = some left →
    ∃ t, exec (.lossOfSignal p) s = .next t ∧ (t.port p).ownHold = (s.port p).ownHold.map (· - left))
  ∧ ∀ (s : State) (p : Port), s.resetAsserted = false → s.pending = [] →
    ∃ t, step s = .next t ∧ (t.port p).ownHold = (s.port p).ownHold.map (· - 1)

/-! ## The line -/

/-- R115, R117: an idle run brings a link that is DOWN UP, with the RISE of LINK_UP, and changes nothing of a link that is UP; every
other character sets the idle mark count to 0, an idle mark raises it, and each starts the watch of R116 again. A FRAME being
collected keeps its data characters, up to 61, and counts them all (R111). That the end character of a FRAME under way, told by
CHARACTER_RECOGNISED, ends it as FRAME_RECEIVED without further characters does is the model's choice between two rows of the table
(log 6); a FRAME passed over, or one on a port that does not receive, ends without an answer or any other effect (R114, R129, R132).
The 16th idle mark hands the idle run in its own act, as IDLE_RUN does, and the count returns to 0 (R115). That IDLE_RUN stands for
the idle marks the run still lacks, and for a run of its own where none has been told, is the model's choice (logs 6 and 27). -/
def Obligations.IdleRunsAndCharactersAtTheLine : Prop :=
  (∀ (s : State) (p : Port), s.resetAsserted = false → (s.port p).state ≠ .disabled → (s.port p).state ≠ .isolated →
    (s.port p).reception.isTaking = false → ∃ t, exec (.idleRun p) s = .next t
      ∧ (t.port p).linkUp = true ∧ (t.port p).idleCount = 0 ∧ (t.port p).state = (s.port p).state
      ∧ (t.port p).score = (s.port p).score ∧ (∀ q : QueueId, t.queue p q = s.queue p q)
      ∧ ((s.port p).linkUp = false → t.flagged (.rise (.linkUp p)))
      ∧ ((s.port p).linkUp = true → t.events = s.events ∧ t.wires = s.wires))
  ∧ (∀ (s : State) (p : Port), (s.port p).state = .disabled → exec (.idleRun p) s = .next s
      ∧ exec (.lossOfSignal p) s = .next s ∧ exec (.unrecognisedCharacter p) s = .next s
      ∧ ∀ c, exec (.characterRecognised p c) s = .next s)
  ∧ (∀ (s : State) (p : Port) (c : Character), s.resetAsserted = false → (s.port p).state ≠ .disabled →
    (c = .idleMark → (s.port p).idleCount < 15) → (c = .endChar → (s.port p).reception = .none) →
    ((s.port p).reception.isTaking = false ∨ ∃ b, c = .data b) →
    ∃ t, exec (.characterRecognised p c) s = .next t ∧ (t.port p).watch = some 1
      ∧ (t.port p).idleCount = (if c = .idleMark then (s.port p).idleCount + 1 else 0)
      ∧ (t.port p).linkUp = (s.port p).linkUp ∧ (t.port p).state = (s.port p).state
      ∧ (t.port p).score = (s.port p).score ∧ t.events = s.events ∧ t.wires = s.wires
      ∧ (c = .start → (t.port p).reception = if s.receives p then .taking [] 0 else .passingOver)
      ∧ ∀ b kept n, c = .data b → (s.port p).reception = .taking kept n →
          (t.port p).reception = .taking ((kept ++ [b]).take 61) (n + 1))
  ∧ (∀ (s : State) (p : Port), (s.port p).state ≠ .disabled → (s.port p).reception ≠ .none →
    exec (.characterRecognised p .endChar) s = exec (.frameReceived p []) s)
  ∧ (∀ (s : State) (p : Port) (chars : List Byte), s.resetAsserted = false → (s.port p).state ≠ .disabled →
    (s.receives p = false ∨ (s.port p).reception = .passingOver) →
    ∃ t, exec (.frameReceived p chars) s = .next t ∧ (t.port p).reception = .none ∧ (t.port p).idleCount = 0
      ∧ (t.port p).watch = some 1 ∧ (t.port p).control = (s.port p).control ∧ (t.port p).counters = (s.port p).counters
      ∧ (t.port p).score = (s.port p).score ∧ (t.port p).awaiting = (s.port p).awaiting ∧ t.pool = s.pool ∧ t.mgmt = s.mgmt
      ∧ t.events = s.events ∧ t.wires = s.wires ∧ ∀ q : QueueId, t.queue p q = s.queue p q)
  ∧ (∀ (s : State) (p : Port), 15 ≤ (s.port p).idleCount → exec (.characterRecognised p .idleMark) s = exec (.idleRun p) s)
  ∧ ∀ (s : State) (p : Port), s.resetAsserted = false → (s.port p).state ≠ .disabled →
    (s.port p).reception.isTaking = false → ∃ t, exec (.unrecognisedCharacter p) s = .next t
      ∧ (t.port p).idleCount = 0 ∧ (t.port p).linkUp = (s.port p).linkUp ∧ (t.port p).watch = (s.port p).watch
      ∧ (t.port p).state = (s.port p).state ∧ (t.port p).score = (s.port p).score
      ∧ (t.port p).recoveryTally = (if (s.port p).state = .isolated then 0 else (s.port p).recoveryTally)

/-- R136 to R138: an idle run raises the tally of an ISOLATED port; at 64 an AUTO port enters its return state and a PARK port
LISTEN, with score 0, tally 0, PORT_RECOVERED set and ISOLATED fallen, WARN fallen from a score of 96 or more (R122), and is judged
for own HOLDING at once (R106, R132); a MANUAL port stays. -/
def Obligations.CleanLineRecoversIsolatedPort : Prop :=
  ∀ (s : State) (p : Port), s.resetAsserted = false → (s.port p).state = .isolated →
    ((s.port p).recoveryTally < 63 → ∃ t, exec (.idleRun p) s = .next t ∧ (t.port p).state = .isolated
      ∧ (t.port p).recoveryTally = (s.port p).recoveryTally + 1 ∧ (t.port p).score = (s.port p).score
      ∧ (t.port p).linkUp = true)
    ∧ (63 ≤ (s.port p).recoveryTally → (s.portRec p).recovery = .manual → ∃ t, exec (.idleRun p) s = .next t
      ∧ (t.port p).state = .isolated ∧ (t.port p).recoveryTally = 64 ∧ (t.port p).score = (s.port p).score)
    ∧ (63 ≤ (s.port p).recoveryTally → (s.portRec p).recovery ≠ .manual → ∃ t, exec (.idleRun p) s = .next t
      ∧ (t.port p).state = (if (s.portRec p).recovery = .auto ∧ (s.port p).returnState = .forward then .forward else .listen)
      ∧ (t.port p).score = 0 ∧ (t.port p).recoveryTally = 0 ∧ t.flagged (.event .portRecovered)
      ∧ t.flagged (.fall (.isolated p)) ∧ (96 ≤ (s.port p).score → t.flagged (.fall (.warn p)))
      ∧ HoldJudged s t p (s.port p).control (s.occupancy p))

/-- R116, R136: a loss of signal takes the link DOWN, with the FALL of LINK_UP, sets the idle mark count and an isolated port's
tally to 0, and changes neither the port state nor the queues; none is declared again before a character has been recognised. That
the time the watch still has passes at the command, for the time base and the other timers, is the model's choice (log 4), and so is
where the watch runs (log 20). -/
def Obligations.LossOfSignalTakesLinkDown : Prop :=
  (∀ (s : State) (p : Port) (left : Nat), s.resetAsserted = false → (s.port p).state ≠ .disabled →
    (s.port p).reception.isTaking = false → (s.port p).watch = some left →
    ∃ t, exec (.lossOfSignal p) s = .next t ∧ (t.port p).linkUp = false ∧ (t.port p).idleCount = 0
      ∧ (t.port p).watch = none ∧ (t.port p).state = (s.port p).state ∧ (t.port p).score = (s.port p).score
      ∧ (t.port p).recoveryTally = (if (s.port p).state = .isolated then 0 else (s.port p).recoveryTally)
      ∧ (∀ q : QueueId, t.queue p q = s.queue p q)
      ∧ (t.port p).partnerHold = (s.port p).partnerHold.map (· - left)
      ∧ t.timeBase = s.timeBase + BitVec.ofNat 32 left
      ∧ ((s.port p).linkUp = true → t.flagged (.fall (.linkUp p)))
      ∧ ((s.port p).linkUp = false → t.events = s.events ∧ t.wires = s.wires))
  ∧ ∀ (s : State) (p : Port), (s.port p).watch = none → exec (.lossOfSignal p) s = .next s

/-! ## The transmitter and the scheduler -/

/-- R108, R109, R119: at the end of a symbol the transmitter of a port in service sends the oldest pending control symbol, else
the FRAME of an attempt that has not been sent, else an idle mark; a DISABLED one sends nothing and the others out of service idle
marks. The end of an attempt's FRAME starts its ack window of ACK_WINDOW µs. That FRAME_SENT stands for the sending of a FRAME that
has not begun, and that TRANSMITTER_SYMBOL_END starts the window where FRAME_SENT has not, is the model's choice (log 6). Once the
restart act is due, no FRAME begins or ends, so that the RESTART reply is the last frame sent before it (R177; log 30). -/
def Obligations.TransmitterChoosesNextSymbol : Prop :=
  let mayEnd := fun (s : State) (p : Port) =>
    s.awaitsRestartAct → ∀ a, (s.port p).attempt = some a → a.phase ≠ .sending
  (∀ (s : State) (p : Port), s.resetAsserted = false → (s.port p).state.inService = false → mayEnd s p →
    ∃ t, exec (.transmitterSymbolEnd p) s = .next t
      ∧ (t.port p).sending = if (s.port p).state = .disabled then .silent else .idleMark)
  ∧ (∀ (s : State) (p : Port) (c : Control) (cs : List Control), s.resetAsserted = false →
    (s.port p).state.inService = true → mayEnd s p → (s.port p).control = c :: cs →
    ∃ t, exec (.transmitterSymbolEnd p) s = .next t ∧ (t.port p).sending = .control c ∧ (t.port p).control = cs
      ∧ (∀ q : QueueId, t.queue p q = s.queue p q))
  ∧ (∀ (s : State) (p : Port) (a : Attempt), s.resetAsserted = false → (s.port p).state.inService = true →
    ¬ s.awaitsRestartAct → (s.port p).control = [] → (s.port p).attempt = some a → a.phase = .waiting →
    ∃ t, exec (.transmitterSymbolEnd p) s = .next t ∧ (t.port p).sending = .frame a.frame
      ∧ (t.port p).attempt = some { a with phase := .sending } ∧ (∀ q : QueueId, t.queue p q = s.queue p q))
  ∧ (∀ (s : State) (p : Port), s.resetAsserted = false → (s.port p).state.inService = true → mayEnd s p →
    (s.port p).control = [] → (∀ a, (s.port p).attempt = some a → a.phase = .waiting → s.awaitsRestartAct) →
    ∃ t, exec (.transmitterSymbolEnd p) s = .next t ∧ (t.port p).sending = .idleMark
      ∧ (∀ a, (s.port p).attempt = some a → a.phase = .sending →
          (t.port p).attempt = some { a with phase := .window (s.portRec p).ackWindow.toNat })
      ∧ ∀ a, (s.port p).attempt = some a → a.phase = .waiting → (t.port p).attempt = some a)
  ∧ (∀ (s : State) (p : Port) (a : Attempt), s.resetAsserted = false → ¬ s.awaitsRestartAct → (s.port p).attempt = some a →
    (a.phase = .waiting ∨ a.phase = .sending) → ∃ t, exec (.frameSent p) s = .next t
      ∧ (t.port p).attempt = some { a with phase := .window (s.portRec p).ackWindow.toNat }
      ∧ (∀ q : QueueId, t.queue p q = s.queue p q) ∧ (t.port p).score = (s.port p).score)
  ∧ ∀ (s : State) (p : Port), s.awaitsRestartAct → exec (.attemptStart p) s = .next s ∧ exec (.frameSent p) s = .next s
    ∧ ∀ a, (s.port p).attempt = some a → a.phase = .sending → exec (.transmitterSymbolEnd p) s = .next s

/-- R75, R79: where the port may start an attempt and a head is chosen, that head becomes the frame in transmission, sent as its
header, its payload and the check word over both; otherwise nothing starts. R75 has four conditions; that no restart act is due is a
fifth by the model's DEDUCED reading of R177 (log 30). The payload of a FORWARDED entry is its buffer's, cut or
padded with zeros to LENGTH (R13); of a GATEWAY entry its buffer's, or none; of a mirror copy the 11-byte header image as received,
the 8-byte trailer and up to 29 bytes of the arrived payload (R20). -/
def Obligations.AttemptSendsChosenHead : Prop :=
  (∀ (s : State) (p : Port), s.mayStart p = true ↔ ¬ s.awaitsRestartAct ∧ (s.port p).attempt = none
      ∧ (s.port p).state.inService = true ∧ (s.port p).linkUp = true ∧ (s.port p).partnerHold = none)
  ∧ (∀ (s : State) (p : Port) (q : QueueId), s.resetAsserted = false → s.mayStart p = true → s.choose p = some q →
    ∃ t e es payload, exec (.attemptStart p) s = .next t ∧ s.queue p q = e :: es
      ∧ t.queue p q = { e with inTransmission := true } :: es ∧ (∀ r : QueueId, r ≠ q → t.queue p r = s.queue p r)
      ∧ (t.port p).attempt = some ⟨q, e.header.encode ++ payload ++ be16 (checkWord (e.header.encode ++ payload)), .waiting⟩
      ∧ (e.buffer = none → payload = [])
      ∧ (∀ b, e.buffer = some b → e.kind = .forwarded → payload =
          (s.buffer b).payload.take e.header.length.toNat
            ++ List.replicate (e.header.length.toNat - (s.buffer b).payload.length) 0)
      ∧ (∀ b, e.buffer = some b → e.kind = .gateway → payload = (s.buffer b).payload)
      ∧ (∀ b m, e.buffer = some b → e.kind = .mirror → e.trailer = some m → payload =
          (s.buffer b).image ++ ([portByte m.arrivalPort, natByte m.rule.val, m.outcome, 0] ++ be32 m.arrivalTime)
            ++ (s.buffer b).payload.take 29)
      ∧ t.pool = s.pool ∧ t.wires = s.wires ∧ (t.port p).counters = (s.port p).counters)
  ∧ ∀ (s : State) (p : Port), (s.mayStart p = false ∨ s.choose p = none) → exec (.attemptStart p) s = .next s

/-- R75 to R77: G comes first. Among the other candidates, ARB URGENCY takes the head of highest URGENCY and the lower queue
between equals; ARB QUEUE takes the lowest queue. M counts behind D3. A data queue is a candidate only in FORWARD with its interval
timer stopped. -/
def Obligations.ChoiceFollowsArbitration : Prop :=
  ∀ (s : State) (p : Port),
    (∀ d : DataQ, s.isCandidate p (.data d) = true ↔ (s.port p).state = .forward ∧ s.queue p (.data d) ≠ []
      ∧ look (s.port p).intervals d = none)
    ∧ (s.isCandidate p .m = true ↔ (s.port p).state = .forward ∧ s.queue p .m ≠ [])
    ∧ (s.isCandidate p .g = true ↔ s.queue p .g ≠ [])
    ∧ (s.isCandidate p .g = true → s.choose p = some .g)
    ∧ (∀ q, s.choose p = some q → s.isCandidate p q = true ∧ (s.isCandidate p .g = false →
      ∀ r e f, s.isCandidate p r = true → (s.queue p q).head? = some e → (s.queue p r).head? = some f →
        ((s.portRec p).arb = .urgency → f.header.urgency < e.header.urgency
          ∨ (f.header.urgency = e.header.urgency ∧ queueRank q ≤ queueRank r))
        ∧ ((s.portRec p).arb = .queue → queueRank q ≤ queueRank r)))
    ∧ (s.choose p = none ↔ ∀ q, s.isCandidate p q = false)

/-! ## Decisions -/

/-- R5 to R13, R17, R162: what a decision makes of an arrived frame before the service stage. Out of FORWARD, or addressed to the
GSN, it is discarded without a scan. Else the first entry of the port's block that is valid and matches source, destination,
service, kind and effective ring is its matched rule; without one it is discarded. DISCARD discards, REFUSE refuses with the rule
index (a reply is discarded), and FORWARD passes a frame of at least MIN_LEN with the outgoing length FIX_LEN, or its own where
FIX_LEN is absent: a reply to call matching, any other to the service stage. A shorter one is refused SHORT (a reply discarded). -/
def Obligations.RuleStageSettlesFrame : Prop :=
  ∀ (s : State) (p : Port) (h : Header),
    let rec_ := s.portRec p
    let ring := if h.ring ≤ rec_.portRing then rec_.portRing else h.ring
    let inBlock := fun i : RuleIx => rec_.ruleStart.toNat ≤ i.val ∧ i.val < rec_.ruleStart.toNat + rec_.ruleCount.toNat
    let hit := fun i : RuleIx =>
      let e := s.rule i
      e.valid = true ∧ h.src &&& e.srcMask = e.src &&& e.srcMask ∧ h.dst &&& e.dstMask = e.dst &&& e.dstMask
        ∧ h.svc &&& e.svcMask = e.svc &&& e.svcMask ∧ ring ≤ e.maxRing
        ∧ ((h.kind = .query ∧ e.kinds.query = true) ∨ (h.kind = .command ∧ e.kinds.command = true)
          ∨ (h.kind = .reply ∧ e.kinds.reply = true) ∨ (h.kind = .notice ∧ e.kinds.notice = true))
    let unread : Progress := ⟨none, none, none, none⟩
    ((s.port p).state ≠ .forward ∨ h.dst = s.settings.gsn → s.judgeArrival p h = .unscanned)
    ∧ ((s.port p).state = .forward → h.dst ≠ s.settings.gsn →
      ((∀ i, inBlock i → ¬ hit i) → s.judgeArrival p h = .noRule)
      ∧ ∀ r, inBlock r → hit r → (∀ i, inBlock i → i < r → ¬ hit i) →
        let e := s.rule r
        let out := match e.fixLen with
          | none => h.length.toNat
          | some n => n.toNat
        (e.verdict = .discard → s.judgeArrival p h = .discard r)
        ∧ (e.verdict = .refuse → h.kind = .reply → s.judgeArrival p h = .discard r)
        ∧ (e.verdict = .refuse → h.kind ≠ .reply → s.judgeArrival p h = .refusal r .rule (natHalf r.val) unread)
        ∧ (e.verdict = .forward → h.length.toNat < e.minLen.toNat → h.kind = .reply → s.judgeArrival p h = .shortReply r)
        ∧ (e.verdict = .forward → h.length.toNat < e.minLen.toNat → h.kind ≠ .reply →
            s.judgeArrival p h = .refusal r .short (natHalf r.val) unread)
        ∧ (e.verdict = .forward → e.minLen.toNat ≤ h.length.toNat → h.kind = .reply → s.judgeArrival p h = .matching r out)
        ∧ (e.verdict = .forward → e.minLen.toNat ≤ h.length.toNat → h.kind ≠ .reply →
            s.judgeArrival p h = s.serviceStage r h ring out))

/-- R28 to R39, R22: steps 4 to 10 for a request or notice, in order. The first that fails settles the status and the detail; a frame
that passes them all is offered for forwarding with the carried ring of R22, and through a GATE with its target's station, its
ENTRY_SVC and its length cut to WORDS × 4. What is told of the way it came is what R159 reports; the length told for a refusal at
steps 4 to 7, before the cut of a gate, is the model's DEDUCED reading (log 16). -/
def Obligations.ServiceStageTakesStepsInOrder : Prop :=
  ∀ (s : State) (r : RuleIx) (h : Header) (ring : RingNo) (len : Nat), h.kind ≠ .reply →
    let out := s.serviceStage r h ring len
    let found := fun i : SvcIx => (s.service i).valid = true ∧ (s.service i).station = h.dst ∧ (s.service i).svcLo ≤ h.svc
      ∧ h.svc ≤ (s.service i).svcHi
    ((∀ i, ¬ found i) → out = .refusal r .noService 65535 ⟨none, none, none, some len⟩)
    ∧ ∀ a, found a → (∀ i, found i → i = a) →
      let e := s.service a
      let v := if e.kind = .gate then e.target else a
      let serving := s.service v
      let usable := e.kind = .gate → serving.valid = true ∧ serving.kind ≠ .gate ∧ serving.svcLo ≤ e.entrySvc
        ∧ e.entrySvc ≤ serving.svcHi
      let access := (h.kind = .query) ∨ (h.kind = .command ∧ (s.rule r).cmdCap = true
          ∧ (e.cmdOk = true ∨ (ring = 0 ∧ s.settings.strict = false)))
        ∨ (h.kind = .notice ∧ e.kind ≠ .gate ∧ (s.rule r).noticeCap = true ∧ e.noticeOk = true)
      let carried := match e.kind with
        | .direct => ring
        | .shared => if ring ≤ e.ring then e.ring else ring
        | .gate => serving.ring
      let n := if e.kind = .gate then min len (e.words.toNat * 4) else len
      let short := fun g : Option SvcIx => (⟨g, none, none, some len⟩ : Progress)
      (¬ usable → out = .refusal r .noService (natHalf a.val) (short none))
      ∧ (usable → e.present = false → out = .refusal r .notPresent (natHalf a.val) (short (some v)))
      ∧ (usable → e.present = true → serving.present = false → out = .refusal r .notPresent (natHalf v.val) (short (some v)))
      ∧ (usable → e.present = true → serving.present = true →
        (¬ access → out = .refusal r .access (natHalf a.val) (short (some v)))
        ∧ (access → e.kind ≠ .shared → ¬ ring ≤ e.ring → out = .refusal r .ring (natHalf a.val) (short (some v)))
        ∧ (access → e.kind = .gate → ring ≤ e.ring → ¬ serving.ring ≤ ring →
            out = .refusal r .ring (natHalf v.val) (short (some v)))
        ∧ (access → (e.kind ≠ .shared → ring ≤ e.ring) → (e.kind = .gate → serving.ring ≤ ring) →
          (serving.limit.toNat < n → out = .refusal r .tooLong (natHalf v.val) ⟨some v, some carried, none, some n⟩)
          ∧ (n ≤ serving.limit.toNat → (s.port serving.port).state ≠ .forward →
              out = .refusal r .portDown (natHalf v.val) ⟨some v, some carried, none, some n⟩)
          ∧ (n ≤ serving.limit.toNat → (s.port serving.port).state = .forward → h.kind.isRequest = true →
              s.calls.freeList = [] →
              out = .refusal r .noRecord (natHalf a.val) ⟨some v, some carried, some serving.port, some n⟩)
          ∧ (n ≤ serving.limit.toNat → (s.port serving.port).state = .forward →
              (h.kind.isRequest = true → s.calls.freeList ≠ []) →
              out = .forward r ⟨a, v, carried, serving.port, if e.kind = .gate then serving.station else h.dst,
                if e.kind = .gate then e.entrySvc else h.svc, n⟩)))

/-- R7, R8, R10, R12, R162: a discard raises DISCARDED, answers nobody and leaves the calls and the capture; NO_RULE is set
without a match and SHORT for a short reply. Frames of one port are decided in the order of their admission. A frame discarded
without a matched rule leaves its buffer, whose last hold judges the port of its origin for own HOLDING and POOL_LOW (R94, R103, R105,
R106, R165). -/
def Obligations.DecisionDiscards : Prop :=
  ∀ (s : State) (p : Port) (b : BufIx) (bs : List BufIx), s.resetAsserted = false → (s.port p).awaiting = b :: bs →
    let x := s.judgeArrival p (Header.decode (s.buffer b).image)
    (x = .unscanned ∨ x = .noRule ∨ (∃ r, x = .discard r) ∨ ∃ r, x = .shortReply r) →
    ∃ t, exec (.decision p) s = .next t ∧ (t.port p).awaiting = bs
      ∧ t.events.counters.discarded = s.events.counters.discarded + 1
      ∧ t.events.counters.forwarded = s.events.counters.forwarded ∧ t.events.counters.refused = s.events.counters.refused
      ∧ t.events.capture = s.events.capture ∧ t.calls = s.calls ∧ t.wires.claims = s.wires.claims
      ∧ (∀ (q : Port) (d : DataQ), t.queue q (.data d) = s.queue q (.data d)) ∧ (∀ q : Port, t.queue q .g = s.queue q .g)
      ∧ (x = .noRule → t.flagged (.event .noRule)) ∧ ((∃ r, x = .shortReply r) → t.flagged (.event .short))
      ∧ (x = .unscanned ∨ x = .noRule → HoldReleased s t (some b)
          ∧ FlagsBecome s t (fun f => (f = .event .noRule ∧ x = .noRule) ∨ s.releaseFlags (some b) f)
          ∧ t.events.counters.mirrors = s.events.counters.mirrors)

/-- R43 to R46: a refusal replaces the capture, raises REFUSED and sets the flag its status names; a request is answered by a
refusal reply in G of its arrival port, or GW_REPLY_LOST is set where G refuses it; a notice is answered by nothing. -/
def Obligations.DecisionRefuses : Prop :=
  ∀ (s : State) (p : Port) (b : BufIx) (bs : List BufIx) (r : RuleIx) (st : Status) (d : Half) (g : Progress),
    s.resetAsserted = false → (s.port p).awaiting = b :: bs →
    let h := Header.decode (s.buffer b).image
    s.judgeArrival p h = .refusal r st d g →
    ∃ t, exec (.decision p) s = .next t ∧ (t.port p).awaiting = bs
      ∧ t.events.counters.refused = s.events.counters.refused + 1
      ∧ t.events.counters.discarded = s.events.counters.discarded
      ∧ t.events.counters.forwarded = s.events.counters.forwarded
      ∧ t.events.capture = ⟨p, h.src, h.dst, h.svc, h.kind, st, d⟩ ∧ t.calls = s.calls
      ∧ (∀ (q : Port) (k : DataQ), t.queue q (.data k) = s.queue q (.data k))
      ∧ (st = .short → t.flagged (.event .short)) ∧ (st = .notPresent → t.flagged (.event .notPresent))
      ∧ (st = .access → t.flagged (.event .accessRefused)) ∧ (st = .ring → t.flagged (.event .ringRefused))
      ∧ (h.kind.isRequest = true → s.accepts p .g = true → t.queue p .g = s.queue p .g
          ++ [emptyReply (s.effectiveRing p h) h.src h.dst h.svc h.tag d st.code])
      ∧ (h.kind.isRequest = true → s.accepts p .g = false → t.queue p .g = s.queue p .g
          ∧ t.flagged (.event .gwReplyLost))
      ∧ (h.kind = .notice → ∀ q : Port, t.queue q .g = s.queue q .g)

/-- R40 to R42, R51, R59: a permitted request opens the record at the front of the free list and joins its data queue under the
record tag, or, where that queue refuses it, frees the record again with a QUEUE_FULL call reply; a permitted notice joins its data
queue under its own tag, or is discarded. Every other data queue, and G of every other port, stays as it was. The open of a FREE
record sets the RISE of CALLS_HIGH where the records in use come up to HIGH_MARK, and freeing it again the FALL (R48, R164, R165).
A queue accepts a delivery by the port state and its fill: D0 to D3 in FORWARD below DEPTH, G in service below 8, and M on the monitor
port in FORWARD below M_DEPTH (R73). -/
def Obligations.DecisionForwards : Prop :=
  (∀ (s : State) (p : Port),
    (∀ d : DataQ, s.accepts p (.data d) = true ↔
      (s.port p).state = .forward ∧ (s.queue p (.data d)).length < (s.queueRec p d).depth.toNat)
    ∧ (s.accepts p .g = true ↔ ((s.port p).state = .listen ∨ (s.port p).state = .forward) ∧ (s.queue p .g).length < 8)
    ∧ (s.accepts p .m = true ↔ s.settings.monitorPort = some p ∧ (s.port p).state = .forward
      ∧ (s.queue p .m).length < s.settings.mDepth.toNat))
  ∧ ∀ (s : State) (p : Port) (b : BufIx) (bs : List BufIx) (r : RuleIx) (f : Forwarding),
    s.resetAsserted = false → (s.port p).awaiting = b :: bs →
    let h := Header.decode (s.buffer b).image
    let e := s.rule r
    let k := s.events.counters
    s.judgeArrival p h = .forward r f →
    (∃ t, exec (.decision p) s = .next t ∧ (t.port p).awaiting = bs
      ∧ (∀ (q : Port) (d : DataQ), q ≠ f.egress ∨ d ≠ e.qclass → t.queue q (.data d) = s.queue q (.data d))
      ∧ ∀ q : Port, q ≠ p → t.queue q .g = s.queue q .g)
    ∧ (∀ i is, h.kind.isRequest = true → s.calls.freeList = i :: is →
      let tag := recordTag (s.record i).gen i
      let rec_ : CallRecord := ⟨.queued, (s.record i).gen, p, h.src, h.tag, s.effectiveRing p h, h.dst, h.svc, f.egress,
        f.dst, f.svc, f.carried, f.addressed,
        s.timeBase + BitVec.ofNat 32 ((s.service f.addressed).timeout.toNat * 1000)⟩
      let reachesMark := (s.record i).state = .free ∧ s.recordsInUse + 1 = s.settings.highMark.toNat
      (s.accepts f.egress (.data e.qclass) = true → ∃ t, exec (.decision p) s = .next t
        ∧ t.calls.freeList = is ∧ t.record i = rec_ ∧ (∀ j, j ≠ i → t.record j = s.record j)
        ∧ t.queue f.egress (.data e.qclass) = s.queue f.egress (.data e.qclass) ++ [newEntry .forwarded
            ⟨h.kind, f.carried, e.urgency.getD h.urgency, f.dst, h.src, f.svc, natByte f.length, tag,
              if e.labelKeep then h.label else e.label, 0⟩ (some b) (some tag) e.oneShot none]
        ∧ (reachesMark → t.flagged (.rise .callsHigh))
        ∧ t.events.counters.forwarded = k.forwarded + 1 ∧ t.events.counters.callsOpened = k.callsOpened + 1
        ∧ t.events.counters.refused = k.refused ∧ t.events.counters.discarded = k.discarded)
      ∧ (s.accepts f.egress (.data e.qclass) = false → ∃ t, exec (.decision p) s = .next t
        ∧ t.calls.freeList = is ++ [i] ∧ t.record i = freedRecord rec_ ∧ callReplySent s t rec_ .queueFull
        ∧ (reachesMark → t.flagged (.rise .callsHigh) ∧ t.flagged (.fall .callsHigh))
        ∧ t.events.counters.forwarded = k.forwarded ∧ t.events.counters.callsOpened = k.callsOpened + 1
        ∧ t.events.counters.refused = k.refused ∧ t.events.capture = s.events.capture))
    ∧ (h.kind = .notice →
      (s.accepts f.egress (.data e.qclass) = true → ∃ t, exec (.decision p) s = .next t ∧ t.calls = s.calls
        ∧ t.queue f.egress (.data e.qclass) = s.queue f.egress (.data e.qclass) ++ [newEntry .forwarded
            ⟨.notice, f.carried, e.urgency.getD h.urgency, f.dst, h.src, f.svc, natByte f.length, h.tag,
              if e.labelKeep then h.label else e.label, 0⟩ (some b) none e.oneShot none]
        ∧ t.events.counters.forwarded = k.forwarded + 1)
      ∧ (s.accepts f.egress (.data e.qclass) = false → ∃ t, exec (.decision p) s = .next t ∧ t.calls = s.calls
        ∧ t.events.counters.discarded = k.discarded + 1 ∧ t.events.counters.forwarded = k.forwarded
        ∧ t.events.capture = s.events.capture))

/-- R54 to R58: a reply whose tag names no open call of that generation is stale, one that fails the checks of R55 is mismatched,
and both are discarded with the call untouched; a matching reply frees its record first, sends the withdraw if the record was
QUEUED, and is delivered rewritten to the requester's data queue, or lost with REPLY_LOST. Every other record and data queue, and
every G, stays as it was. CALLS_HIGH falls where the records in use come down from HIGH_MARK (R48, R164, R165). -/
def Obligations.ReplyIsMatchedToItsCall : Prop :=
  ∀ (s : State) (p : Port) (b : BufIx) (bs : List BufIx) (r : RuleIx) (len : Nat),
    s.resetAsserted = false → (s.port p).awaiting = b :: bs →
    let h := Header.decode (s.buffer b).image
    let e := s.rule r
    let k := s.events.counters
    s.judgeArrival p h = .matching r len →
    (∃ t, exec (.decision p) s = .next t ∧ (t.port p).awaiting = bs ∧ (∀ q : Port, t.queue q .g = s.queue q .g)
      ∧ (∀ j, s.claimed h.tag ≠ some j → t.record j = s.record j)
      ∧ ∀ (q : Port) (d : DataQ), (∀ i, s.claimed h.tag = some i → q ≠ (s.record i).reqPort ∨ d ≠ e.qclass) →
          t.queue q (.data d) = s.queue q (.data d))
    ∧ (s.claimed h.tag = none → ∃ t, exec (.decision p) s = .next t ∧ t.calls = s.calls
      ∧ t.flagged (.event .staleReply) ∧ t.events.counters.discarded = k.discarded + 1)
    ∧ ∀ i, s.claimed h.tag = some i →
      let c := s.record i
      let fits := p = c.tgtPort ∧ h.src = c.tgtStation ∧ h.svc = c.tgtSvc ∧ h.dst = c.reqStation
        ∧ s.effectiveRing p h ≤ c.carriedRing
      (¬ fits → ∃ t, exec (.decision p) s = .next t ∧ t.calls = s.calls ∧ t.flagged (.event .replyMismatch)
        ∧ t.events.counters.discarded = k.discarded + 1)
      ∧ (fits → ∃ t, exec (.decision p) s = .next t ∧ t.record i = freedRecord c
        ∧ t.calls.freeList = s.calls.freeList ++ [i]
        ∧ t.wires.withdraws = s.wires.withdraws ++ (if c.state = .queued then [(c.tgtPort, recordTag c.gen i)] else [])
        ∧ (s.recordsInUse = s.settings.highMark.toNat → t.flagged (.fall .callsHigh))
        ∧ (s.accepts c.reqPort (.data e.qclass) = true →
            t.queue c.reqPort (.data e.qclass) = s.queue c.reqPort (.data e.qclass) ++ [newEntry .forwarded
              ⟨.reply, c.reqRing, e.urgency.getD h.urgency, c.reqStation, c.addrStation, c.addrSvc, natByte len, c.reqTag,
                if e.labelKeep then h.label else e.label, h.status⟩ (some b) none e.oneShot none]
            ∧ t.events.counters.forwarded = k.forwarded + 1)
        ∧ (s.accepts c.reqPort (.data e.qclass) = false → t.flagged (.event .replyLost)
            ∧ t.events.counters.discarded = k.discarded + 1 ∧ t.events.counters.forwarded = k.forwarded))

/-- R28 to R39, R22: what the decision offers for forwarding has passed every step. It arrived on a port in FORWARD, was matched by
a FORWARD rule it is long enough for, addressed a valid, present entry that permits it at its effective ring, fits the serving
entry's LIMIT and leaves by a port in FORWARD; its length is that of R13, cut by a GATE; and it carries a lower ring than its
effective ring only through a GATE. -/
def Obligations.OnlyPermittedFramesAreForwarded : Prop :=
  ∀ (s : State) (p : Port) (h : Header) (r : RuleIx) (f : Forwarding), s.judgeArrival p h = .forward r f →
    let ring := s.effectiveRing p h
    let a := s.service f.addressed
    let v := s.service f.serving
    let out := match (s.rule r).fixLen with
      | none => h.length.toNat
      | some n => n.toNat
    (s.port p).state = .forward ∧ h.dst ≠ s.settings.gsn ∧ h.kind ≠ .reply
    ∧ s.scan p h ring = some r ∧ (s.rule r).verdict = .forward ∧ (s.rule r).minLen.toNat ≤ h.length.toNat
    ∧ a.valid = true ∧ a.station = h.dst ∧ a.svcLo ≤ h.svc ∧ h.svc ≤ a.svcHi ∧ a.present = true ∧ v.present = true
    ∧ (h.kind = .command → (s.rule r).cmdCap = true ∧ (a.cmdOk = true ∨ (ring = 0 ∧ s.settings.strict = false)))
    ∧ (h.kind = .notice → a.kind ≠ .gate ∧ (s.rule r).noticeCap = true ∧ a.noticeOk = true)
    ∧ (a.kind = .direct → f.serving = f.addressed ∧ ring ≤ a.ring ∧ f.carried = ring)
    ∧ (a.kind = .shared → f.serving = f.addressed ∧ f.carried = if ring ≤ a.ring then a.ring else ring)
    ∧ (a.kind = .gate → f.serving = a.target ∧ v.valid = true ∧ v.kind ≠ .gate ∧ ring ≤ a.ring ∧ v.ring ≤ ring
        ∧ f.carried = v.ring ∧ f.dst = v.station ∧ f.svc = a.entrySvc ∧ f.length = min out (a.words.toNat * 4))
    ∧ (a.kind ≠ .gate → f.dst = h.dst ∧ f.svc = h.svc ∧ f.length = out)
    ∧ f.egress = v.port ∧ f.length ≤ v.limit.toNat ∧ (s.port f.egress).state = .forward
    ∧ (h.kind.isRequest = true → s.calls.freeList ≠ [])

/-- R33, R32: step 6 permits a query always; it refuses a notice to a GATE, and a notice to another entry unless both its rule and
the entry permit notices, with the addressed entry as detail, whatever its effective ring and STRICT; a command it permits where the
rule permits commands and either the entry does or the effective ring is 0 and STRICT is 0, and refuses otherwise, with the same
detail; a frame that fails both access and ring is refused ACCESS. -/
def Obligations.AccessOfQueriesAndNotices : Prop :=
  ∀ (s : State) (r : RuleIx) (h : Header) (ring : RingNo) (len : Nat) (a : SvcIx),
    s.addressedEntry h = some a → ((s.service a).kind = .gate → s.targetUsable (s.service a) = true) →
    s.offlineEntry a = none →
    (h.kind = .query → ∀ d g, s.serviceStage r h ring len ≠ .refusal r .access d g)
    ∧ (h.kind = .notice → (s.service a).kind = .gate →
      ∃ g, s.serviceStage r h ring len = .refusal r .access (detailOf a) g)
    ∧ (h.kind = .notice → (s.service a).kind ≠ .gate →
      ((s.rule r).noticeCap = true ∧ (s.service a).noticeOk = true → ∀ d g, s.serviceStage r h ring len ≠ .refusal r .access d g)
      ∧ (¬ ((s.rule r).noticeCap = true ∧ (s.service a).noticeOk = true) →
        ∃ g, s.serviceStage r h ring len = .refusal r .access (detailOf a) g))
    ∧ (h.kind = .command →
      let permitted := (s.rule r).cmdCap = true ∧ ((s.service a).cmdOk = true ∨ (ring = 0 ∧ s.settings.strict = false))
      (permitted → ∀ d g, s.serviceStage r h ring len ≠ .refusal r .access d g)
      ∧ (¬ permitted → ∃ g, s.serviceStage r h ring len = .refusal r .access (detailOf a) g))
    ∧ (s.accessPermitted (s.rule r) (s.service a) h.kind ring = false → s.ringFailure a ring ≠ none →
      ∃ g, s.serviceStage r h ring len = .refusal r .access (detailOf a) g)

/-- R18 to R20: a matched rule with MIRROR 1 makes one copy, after the outcome is settled: it joins M of the monitor port with the
outcome, or MIRROR_LOST is set; MIRRORS rises either way. The outcome is the status of a refusal, 0 for an accepted primary delivery,
10 for a request whose primary delivery is refused, and 255 for every discard, a reply's and a notice's among them. Without MIRROR
nothing is made. -/
def Obligations.MirrorCopyFollowsOutcome : Prop :=
  ∀ (s : State) (p : Port) (b : BufIx) (bs : List BufIx) (r : RuleIx), s.resetAsserted = false →
    (s.port p).awaiting = b :: bs →
    let h := Header.decode (s.buffer b).image
    let x := s.judgeArrival p h
    let g := s.settings
    x.matchedRule = some r →
    ((s.rule r).mirror = false → ∃ t, exec (.decision p) s = .next t ∧ t.events.counters.mirrors = s.events.counters.mirrors
      ∧ ∀ q : Port, t.queue q .m = s.queue q .m)
    ∧ ((s.rule r).mirror = true → ∃ t, exec (.decision p) s = .next t
      ∧ t.events.counters.mirrors = s.events.counters.mirrors + 1
      ∧ (∀ m, g.monitorPort = some m → g.monitorStation ≠ 255 → s.accepts m .m = true →
        ∃ outcome : Byte, t.queue m .m = s.queue m .m ++ [newEntry .mirror
            ⟨.notice, 0, 0, g.monitorStation, g.gsn, g.monitorSvc, natByte (19 + min (s.buffer b).payload.length 29), 0, 0, 0⟩
            (some b) none false (some ⟨p, r, outcome, (s.buffer b).arrivalTime⟩)]
          ∧ (∀ r' st d gr, x = .refusal r' st d gr → outcome = st.code)
          ∧ (x = .discard r ∨ x = .shortReply r → outcome = 255)
          ∧ (let delivered := t.events.counters.forwarded = s.events.counters.forwarded + 1
            let lost := t.events.counters.forwarded = s.events.counters.forwarded
            ((∃ len, x = .matching r len) → (outcome = 0 ∧ delivered) ∨ (outcome = 255 ∧ lost))
            ∧ (∀ f, x = .forward r f → h.kind.isRequest = true → (outcome = 0 ∧ delivered) ∨ (outcome = 10 ∧ lost))
            ∧ ∀ f, x = .forward r f → h.kind = .notice → (outcome = 0 ∧ delivered) ∨ (outcome = 255 ∧ lost)))
      ∧ ((∀ m, g.monitorPort = some m → g.monitorStation = 255 ∨ s.accepts m .m = false) →
        t.flagged (.event .mirrorLost) ∧ ∀ q : Port, t.queue q .m = s.queue q .m))

/-! ## Claims on calls -/

/-- R49, R53: the record tag of a call is GEN × 256 + index, and a tag names the record of its low byte where that record is in use
and its GEN is the tag's high byte; a low byte above 127 names none. R60, R61: a delivered claim makes the QUEUED call its tag names
WAITING; an undeliverable claim frees it, with a CANCELLED call reply when it states an abort and otherwise an UNDELIVERABLE one
with that flag; a claim that names no QUEUED call of its generation changes nothing at the table. CALLS_HIGH falls where the records
in use come down from HIGH_MARK (R165). That one port's claims of one sort are taken oldest first is the model's DEDUCED reading
(log 8), and that the command changes nothing where no such claim waits is its choice (log 7). -/
def Obligations.TagClaimsActOnTheirCall : Prop :=
  (∀ (gen : BitVec 8) (i : CallIx), (recordTag gen i).toNat = gen.toNat * 256 + i.val)
  ∧ (∀ (s : State) (tag : Tag) (i : CallIx), s.claimed tag = some i ↔
    tag.toNat % 256 = i.val ∧ (s.record i).state ≠ .free ∧ (s.record i).gen.toNat = tag.toNat / 256)
  ∧   (∀ (s : State) (p : Port) (tag : Tag), s.resetAsserted = false →
    s.wires.claims.find? (Claim.isDelivered p) = some (.delivered p tag) →
    ∃ t, exec (.deliveredClaim p) s = .next t ∧ t.wires.claims = s.wires.claims.erase (.delivered p tag)
      ∧ t.ports = s.ports ∧ t.pool = s.pool ∧ t.events = s.events ∧ t.calls.freeList = s.calls.freeList
      ∧ ∀ j, t.record j = if s.claimed tag = some j ∧ (s.record j).state = .queued
          then { s.record j with state := .waiting } else s.record j)
  ∧ (∀ (s : State) (p : Port) (tag : Tag) (abort : Bool), s.resetAsserted = false →
    s.wires.claims.find? (Claim.isUndeliverable p) = some (.undeliverable p tag abort) →
    (∀ i, s.claimed tag = some i → (s.record i).state = .queued →
      ∃ t, exec (.undeliverableClaim p) s = .next t ∧ t.record i = freedRecord (s.record i)
        ∧ t.calls.freeList = s.calls.freeList ++ [i] ∧ (∀ j, j ≠ i → t.record j = s.record j)
        ∧ t.wires.withdraws = s.wires.withdraws
        ∧ callReplySent s t (s.record i) (if abort then .cancelled else .undeliverable)
        ∧ (s.recordsInUse = s.settings.highMark.toNat → t.flagged (.fall .callsHigh))
        ∧ (abort = false → t.flagged (.event .undeliverable)))
    ∧ ((∀ i, s.claimed tag = some i → (s.record i).state ≠ .queued) →
      ∃ t, exec (.undeliverableClaim p) s = .next t ∧ t.calls = s.calls ∧ t.ports = s.ports ∧ t.events = s.events
        ∧ t.wires.claims = s.wires.claims.erase (.undeliverable p tag abort)))
  ∧ ∀ (s : State) (p : Port), (s.wires.claims.find? (Claim.isDelivered p) = none → exec (.deliveredClaim p) s = .next s)
    ∧ (s.wires.claims.find? (Claim.isUndeliverable p) = none → exec (.undeliverableClaim p) s = .next s)

/-- R64, R67, R68: the port down claim frees every record in use that names the port, in rising order of index, with a withdraw for
each QUEUED record that names it as requester alone. Each record that names it as target alone is answered PORT_DOWN: the replies
join G of their requester ports in that order, as many as G has room for, and the rest are lost with GW_REPLY_LOST. A tag claim of
the flush frees the one record its tag names, with a PORT_DOWN call reply unless the requester stood on the port. CALLS_HIGH falls
where the records in use come down from HIGH_MARK (R165). That one port's tag claims are taken oldest first is the model's DEDUCED
reading (log 8). -/
def Obligations.PortDownClaimsEndCalls : Prop :=
  (∀ (s : State) (p : Port), s.resetAsserted = false → Claim.portDown p ∈ s.wires.claims →
    let reached := fun i : CallIx => (s.record i).inUse && ((s.record i).reqPort == p || (s.record i).tgtPort == p)
    ∃ t, exec (.portDownClaim p) s = .next t
      ∧ (∀ i, t.record i = if reached i then freedRecord (s.record i) else s.record i)
      ∧ t.calls.freeList = s.calls.freeList ++ (List.finRange 128).filter reached
      ∧ t.wires.withdraws = s.wires.withdraws ++ ((List.finRange 128).filter (fun i => reached i
          && (s.record i).tgtPort != p && (s.record i).state == .queued)).map
            (fun i => ((s.record i).tgtPort, recordTag (s.record i).gen i))
      ∧ (∀ q : Port,
        let replies := ((List.finRange 128).filter (fun i => (s.record i).inUse && (s.record i).tgtPort == p
          && (s.record i).reqPort != p && (s.record i).reqPort == q)).map (fun i => callReplyEntry (s.record i) .portDown)
        let room := if (s.port q).state.inService then 8 - (s.port q).gq.length else 0
        t.queue q .g = s.queue q .g ++ replies.take room ∧ (room < replies.length → t.flagged (.event .gwReplyLost)))
      ∧ (∀ (q : Port) (d : DataQ), t.queue q (.data d) = s.queue q (.data d))
      ∧ (s.settings.highMark.toNat ≤ s.recordsInUse → t.recordsInUse < s.settings.highMark.toNat →
          t.flagged (.fall .callsHigh)))
  ∧ ∀ (s : State) (p : Port) (tag : Tag), s.resetAsserted = false →
    s.wires.claims.find? (Claim.isTargetPortDown p) = some (.targetPortDown p tag) →
    (∀ i, s.claimed tag = some i → (s.record i).tgtPort = p →
      ∃ t, exec (.targetPortDownClaim p) s = .next t ∧ t.record i = freedRecord (s.record i)
        ∧ t.calls.freeList = s.calls.freeList ++ [i] ∧ (∀ j, j ≠ i → t.record j = s.record j)
        ∧ t.wires.withdraws = s.wires.withdraws
        ∧ (s.recordsInUse = s.settings.highMark.toNat → t.flagged (.fall .callsHigh))
        ∧ ((s.record i).reqPort ≠ p → callReplySent s t (s.record i) .portDown)
        ∧ ((s.record i).reqPort = p → t.ports = s.ports))
    ∧ (s.claimed tag = none → ∃ t, exec (.targetPortDownClaim p) s = .next t ∧ t.calls = s.calls ∧ t.ports = s.ports
        ∧ t.events = s.events ∧ t.wires.claims = s.wires.claims.erase (.targetPortDown p tag))

/-- R62, R52: a record in use expires when the time base reaches its DEADLINE: it is freed, a QUEUED one sends its withdraw, the
requester is sent TIMEOUT, CALL_TIMEOUT is set and CALLS_TIMED_OUT rises; the data queues, every other G and the buffers stay, and
CALLS_HIGH falls where the records in use come down from HIGH_MARK (R165). A FREE record has no deadline. That CALL_EXPIRY itself
lets the time to the DEADLINE pass, and none where it has been reached, is the model's choice (log 4), and so is that the command
changes nothing for a FREE record (log 7). -/
def Obligations.CallExpiresAtDeadline : Prop :=
  (∀ (s : State) (i : CallIx), s.resetAsserted = false → (s.record i).inUse = true →
    ∃ t, exec (.callExpiry i) s = .next t
      ∧ t.timeBase = (if reached s.timeBase (s.record i).deadline then s.timeBase else (s.record i).deadline)
      ∧ t.record i = freedRecord (s.record i) ∧ t.calls.freeList = s.calls.freeList ++ [i]
      ∧ (∀ j, j ≠ i → t.record j = s.record j)
      ∧ t.wires.withdraws = s.wires.withdraws ++ (if (s.record i).state = .queued
          then [((s.record i).tgtPort, recordTag (s.record i).gen i)] else [])
      ∧ callReplySent s t (s.record i) .timeout ∧ t.flagged (.event .callTimeout)
      ∧ (s.recordsInUse = s.settings.highMark.toNat → t.flagged (.fall .callsHigh))
      ∧ t.events.counters.callsTimedOut = s.events.counters.callsTimedOut + 1
      ∧ (∀ (q : Port) (d : DataQ), t.queue q (.data d) = s.queue q (.data d))
      ∧ (∀ q : Port, q ≠ (s.record i).reqPort → t.queue q .g = s.queue q .g) ∧ t.pool = s.pool)
  ∧ ∀ (s : State) (i : CallIx), (s.record i).state = .free → exec (.callExpiry i) s = .next s

/-- R85: a withdraw removes the waiting entry that carries its tag from the data queues of its port, releasing its hold, and marks
the one in transmission unless it is marked ABORT; it raises no counter, makes no claim and reaches no other port's queues. Where
one entry is removed, the release of its hold brings the judgements of R94, R103, R105, R106 and R165, and sets no other flag. That a
withdraw waits until its command names its port and tag is the model's DEDUCED reading (log 8), and that the command changes nothing
where none waits is its choice (log 7). -/
def Obligations.WithdrawRemovesRequest : Prop :=
  (∀ (s : State) (p : Port) (tag : Tag), s.resetAsserted = false → (p, tag) ∈ s.wires.withdraws →
    let leaves := fun e : QueueEntry => e.callTag == some tag && !e.inTransmission
    let gone := (s.queue p (.data 0) ++ s.queue p (.data 1) ++ s.queue p (.data 2) ++ s.queue p (.data 3)).filter leaves
    ∃ t, exec (.withdraw p tag) s = .next t ∧ t.wires.withdraws = s.wires.withdraws.erase (p, tag)
      ∧ t.wires.claims = s.wires.claims ∧ t.calls = s.calls ∧ (t.port p).counters = (s.port p).counters
      ∧ (t.port p).attempt = (s.port p).attempt
      ∧ (∀ d : DataQ, t.queue p (.data d) =
          ((s.queue p (.data d)).filter (fun e => !leaves e)).map
            (fun e => if e.callTag = some tag ∧ e.noRetry ≠ .abort then { e with noRetry := .withdraw } else e))
      ∧ (∀ b : BufIx, (t.buffer b).holds = (s.buffer b).holds - gone.countP (fun e => e.buffer == some b))
      ∧ (∀ e, gone = [e] → HoldReleased s t e.buffer ∧ FlagsBecome s t (fun f => s.releaseFlags e.buffer f))
      ∧ t.queue p .g = s.queue p .g ∧ t.queue p .m = s.queue p .m
      ∧ ∀ (q : Port) (r : QueueId), q ≠ p → t.queue q r = s.queue q r)
  ∧ ∀ (s : State) (p : Port) (tag : Tag), (p, tag) ∉ s.wires.withdraws → exec (.withdraw p tag) s = .next s

/-! ## Notices -/

/-- R167, R168, R100: the setting of a member of NOTICE_EN from clear is a notice trigger, and no other setting is. At a trigger,
where the flag is still a member of NOTICE_EN (log 10), ARMED is set, a report station is named, the report port is in service, a
buffer is free and G accepts, one notice carrying the event set and the time base joins G and ARMED is cleared; where one of these
fails, no notice is made and nothing changes. A notice carries no flag whose trigger is taken later, and the RISE of POOL_LOW it
causes is set behind it (R165). That the flag is set in its act and the attempt waits for NOTICE_ATTEMPT is the model's choice (log
10), and so is that this command changes nothing where no such trigger waits (log 7). -/
def Obligations.NoticeAttemptBuildsOneNotice : Prop :=
  (∀ (c : Instr) (s : State), leavesTriggers c = true → ∃ t, exec c s = .next t
    ∧ (∀ f, s.flagSet f = true → t.flagSet f = true)
    ∧ ∀ f, f ∈ t.wires.triggers ↔ f ∈ s.wires.triggers
        ∨ (s.flagEnabled f = true ∧ s.flagSet f = false ∧ t.flagSet f = true))
  ∧ (∀ (s : State) (f : Flag), s.resetAsserted = false → f ∈ s.wires.triggers →
    let g := s.settings
    let low := s.freeCount = g.lowMark.toNat + 1
    (s.flagEnabled f = true → s.events.armed = true → g.reportStation ≠ 255 → (s.port g.reportPort).state.inService = true →
      1 ≤ s.freeCount → (s.port g.reportPort).gq.length < 8 →
      ∃ t b carried, exec (.noticeAttempt f) s = .next t ∧ t.events.armed = false
        ∧ FlagsBecome s t (fun k => k = .rise .poolLow ∧ low)
        ∧ (∀ k, k ∈ t.wires.triggers ↔ (k ∈ s.wires.triggers ∧ k ≠ f)
            ∨ (k = .rise .poolLow ∧ low ∧ s.flagEnabled k = true ∧ s.flagSet k = false))
        ∧ (s.buffer b).holds = 0 ∧ (t.buffer b).holds = 1 ∧ (t.buffer b).origin = .gateway
        ∧ (t.buffer b).payload = be64 carried ++ be32 s.timeBase
        ∧ (∀ k, carried.getLsbD k = true ↔ s.events.flags.getLsbD k = true
            ∧ ∀ m ∈ s.wires.triggers, m ≠ f → flagBit m ≠ k)
        ∧ (s.flagSet f = true → carried.getLsbD (flagBit f) = true)
        ∧ (∀ c, c ≠ b → t.buffer c = s.buffer c) ∧ t.freeCount + 1 = s.freeCount ∧ t.calls = s.calls
        ∧ (∀ (q : Port) (r : QueueId), q ≠ g.reportPort ∨ r ≠ .g → t.queue q r = s.queue q r)
        ∧ t.queue g.reportPort .g = s.queue g.reportPort .g ++ [newEntry .gateway
            ⟨.notice, 0, 7, g.reportStation, g.gsn, g.reportSvc, 12, 0, 0, 0⟩ (some b) none false none])
    ∧ ((s.flagEnabled f = false ∨ s.events.armed = false ∨ g.reportStation = 255
        ∨ (s.port g.reportPort).state.inService = false ∨ s.freeCount = 0 ∨ 8 ≤ (s.port g.reportPort).gq.length) →
      ∃ t, exec (.noticeAttempt f) s = .next t ∧ t.events = s.events ∧ t.ports = s.ports ∧ t.pool = s.pool
        ∧ t.calls = s.calls ∧ t.wires.triggers = s.wires.triggers.filter (· != f)))
  ∧ ∀ (s : State) (f : Flag), f ∉ s.wires.triggers → exec (.noticeAttempt f) s = .next s

/-! ## Management -/

/-- R145, R146: a head of kind REPLY or NOTICE, and one whose port does not admit management, is taken and discarded without a
reply; a request whose ring fails is answered RING with MGMT_REFUSED set; a request whose port's G holds 8 entries waits, and so
does every head while RESTART is pending. The answer RING is stated for a take with nothing interleaved (what may come between is the
model's choice, log 11), and that the command changes nothing where no head can be taken is its choice too (log 7). -/
def Obligations.ManagementHeadIsJudged : Prop :=
  ∀ (s : State) (o : Interleaving),
    (s.mgmt.restart ≠ .clear ∨ s.mgmt.queue = [] → exec (.managementTake o) s = .next s)
    ∧ ∀ (e : MgmtEntry) (es : List MgmtEntry), s.resetAsserted = false → s.mgmt.restart = .clear → s.mgmt.queue = e :: es →
      let h := Header.decode (s.buffer e.buffer).image
      let ring := s.effectiveRing e.port h
      let permitted := (h.kind = .query ∧ ring ≤ s.settings.mgmtReadRing) ∨ (h.kind = .command ∧ ring ≤ s.settings.mgmtWriteRing)
      (h.kind.isRequest = false → ∃ t, exec (.managementTake o) s = .next t ∧ t.mgmt.queue = es
        ∧ t.events.counters.discarded = s.events.counters.discarded + 1 ∧ (∀ q : Port, t.queue q .g = s.queue q .g)
        ∧ (t.buffer e.buffer).holds = (s.buffer e.buffer).holds - 1)
      ∧ (h.kind.isRequest = true → (s.portRec e.port).mgmtAdmit = false → ∃ t, exec (.managementTake o) s = .next t
        ∧ t.mgmt.queue = es ∧ t.flagged (.event .mgmtRefused) ∧ (∀ q : Port, t.queue q .g = s.queue q .g)
        ∧ t.events.counters = s.events.counters ∧ (t.buffer e.buffer).holds = (s.buffer e.buffer).holds - 1)
      ∧ (h.kind.isRequest = true → (s.portRec e.port).mgmtAdmit = true → 8 ≤ (s.port e.port).gq.length →
        exec (.managementTake o) s = .next s)
      ∧ (h.kind.isRequest = true → (s.portRec e.port).mgmtAdmit = true → s.accepts e.port .g = true → ¬ permitted →
        ∃ t, exec (.managementTake ⟨o.callReplyAfter, []⟩) s = .next t ∧ t.mgmt.queue = es
          ∧ t.flagged (.event .mgmtRefused) ∧ t.tables = s.tables
          ∧ t.queue e.port .g = s.queue e.port .g
            ++ [emptyReply ring h.src s.settings.gsn h.svc h.tag 0 Status.ring.code])

/-- R147: a request that passes the tests of R145 and R146 runs the operation its SVC names, if its kind is the operation's and its
payload has the operation's length. An SVC that names no operation, or one of the other kind, is answered BAD_OP, and another length
BAD_LENGTH; a WRITE TABLE shorter than 2 bytes is answered BAD_LENGTH, then one whose table code names no table BAD_TABLE, then one
that is not 2 bytes longer than its table's image BAD_LENGTH. A refused request changes no table, call or counter and is answered
with its status and an empty payload (here with nothing interleaved, log 11). -/
def Obligations.RequestNamesItsOperation : Prop :=
  ∀ (s : State) (e : MgmtEntry) (es : List MgmtEntry), s.resetAsserted = false → s.mgmt.restart = .clear →
    s.mgmt.queue = e :: es →
    let h := Header.decode (s.buffer e.buffer).image
    let pl := (s.buffer e.buffer).payload
    let ring := s.effectiveRing e.port h
    (s.portRec e.port).mgmtAdmit = true → (s.port e.port).gq.length < 8 →
    ((h.kind = .query ∧ ring ≤ s.settings.mgmtReadRing) ∨ (h.kind = .command ∧ ring ≤ s.settings.mgmtWriteRing)) →
    let plain : List (Svc × Operation × Kind × Nat) := [(1, .identify, .query, 0), (2, .readTable, .query, 4),
      (4, .clearTable, .command, 3), (5, .readState, .query, 0), (6, .setPortState, .command, 2), (7, .abortQueue, .command, 2),
      (8, .cancelCall, .command, 2), (9, .readCall, .query, 1), (10, .readEvents, .query, 0), (11, .readCounters, .query, 2),
      (12, .probe, .query, 8), (13, .restart, .command, 0)]
    let tables : List (Byte × Operation × Nat) := [(1, .writeRule, 23), (2, .writeService, 19), (3, .writePort, 13),
      (4, .writeQueue, 3), (5, .writeGateway, 24)]
    let answered := fun st : Status => ∀ after : Bool, ∃ t, exec (.managementTake ⟨after, []⟩) s = .next t
      ∧ t.mgmt.queue = es ∧ t.tables = s.tables ∧ t.calls = s.calls ∧ t.events.counters = s.events.counters
      ∧ (t.buffer e.buffer).holds = (s.buffer e.buffer).holds - 1
      ∧ (∀ (p : Port) (q : QueueId), p ≠ e.port ∨ q ≠ .g → t.queue p q = s.queue p q)
      ∧ ((s.port e.port).state.inService = true → t.queue e.port .g = s.queue e.port .g
          ++ [emptyReply ring h.src s.settings.gsn h.svc h.tag 0 st.code])
      ∧ ((s.port e.port).state.inService = false → t.queue e.port .g = s.queue e.port .g ∧ t.flagged (.event .gwReplyLost))
    (∀ svc op kind n, (svc, op, kind, n) ∈ plain → h.svc = svc →
      (h.kind = kind → pl.length = n → s.runs e op) ∧ (h.kind ≠ kind → answered .badOp)
      ∧ (h.kind = kind → pl.length ≠ n → answered .badLength))
    ∧ (h.svc = 0 ∨ 13 < h.svc → answered .badOp)
    ∧ (h.svc = 3 →
      (h.kind = .query → answered .badOp)
      ∧ (h.kind = .command → pl.length < 2 → answered .badLength)
      ∧ (h.kind = .command → 2 ≤ pl.length → byteAt pl 0 = 0 ∨ 5 < byteAt pl 0 → answered .badTable)
      ∧ ∀ code op n, (code, op, n) ∈ tables → h.kind = .command → 2 ≤ pl.length → byteAt pl 0 = code →
        (pl.length = 2 + n → s.runs e op) ∧ (pl.length ≠ 2 + n → answered .badLength))

/-- R147, R148: the take of a head that runs an operation is that operation's own row, and answers the request after the
operation's effects; the row is no step where the head runs another operation (log 12). -/
def Obligations.OperationRowsAreTakes : Prop :=
  ∀ (op : Operation) (o : Interleaving) (s : State),
    (∀ e, s.runs e op → exec (.managementTake o) s = exec (rowOf op o) s
      ∧ exec (.managementTake o) s
        = .next (State.answer s.settings.gsn o (s.request e) (execute op s.dropHead (s.request e)) (op == .restart)))
    ∧ ((∀ e, s.judgeHead ≠ .run e op) → exec (rowOf op o) s = .next s)

/-- R148, R149, R160: where no call reply is owed, the demands interleaved with the take are taken between the operation's effects and
its reply, each as its own command would be (log 11). The management reply then joins the accepting G of the arrival port with the
header of R149, its payload written into the request's own buffer, which it then holds; an empty reply holds none; where G refuses
it, filled in between or out of service, GW_REPLY_LOST is set, and the loss of a RESTART reply is reported at once. The operation's
effects stand. -/
def Obligations.ManagementReplyIsDelivered : Prop :=
  ∀ (s : State) (o : Interleaving) (e : MgmtEntry) (op : Operation), s.runs e op →
    let q := s.request e
    let x := execute op s.dropHead q
    x.owed = none →
    ∃ u t, RunsDemands o.between x.state u ∧ exec (.managementTake o) s = .next t
      ∧ t.tables = x.state.tables ∧ t.calls = u.calls
      ∧ (∀ (p : Port) (r : QueueId), p ≠ e.port ∨ r ≠ .g → t.queue p r = u.queue p r)
      ∧ (∀ b : BufIx, b ≠ e.buffer → t.buffer b = u.buffer b)
      ∧ (u.accepts e.port .g = true →
        t.queue e.port .g = u.queue e.port .g ++ [⟨.gateway,
          ⟨.reply, ringMax q.header.ring (s.portRec e.port).portRing, 7, q.header.src, s.settings.gsn, q.header.svc,
            natByte x.payload.length, q.header.tag, 0, x.status.code⟩,
          if x.payload = [] then none else some e.buffer, none, 0, false, .none, false, none, op == .restart⟩]
        ∧ (x.payload ≠ [] → (t.buffer e.buffer).payload = x.payload
            ∧ (t.buffer e.buffer).holds = (u.buffer e.buffer).holds)
        ∧ (x.payload = [] → (t.buffer e.buffer).holds = (u.buffer e.buffer).holds - 1))
      ∧ (u.accepts e.port .g = false → t.flagged (.event .gwReplyLost)
        ∧ t.queue e.port .g = u.queue e.port .g ∧ (t.buffer e.buffer).holds = (u.buffer e.buffer).holds - 1
        ∧ (op = .restart → t.mgmt.restart = .reported e.port))

/-- R150: IDENTIFY returns, with status OK, the fixed identity, the capacities and the GSN in force, which is also the SRC of the
reply; it changes no setting. -/
def Obligations.IdentifyReturnsIdentity : Prop :=
  ∀ (s : State) (o : Interleaving) (e : MgmtEntry), s.runs e .identify →
    ∃ x : Executed, exec (.identify o) s = .next (State.answer s.settings.gsn o (s.request e) x false)
      ∧ x.state = s.dropHead ∧ x.state.tables = s.tables ∧ x.status = .ok ∧ x.owed = none
      ∧ x.payload = be16 3301 ++ be16 4004 ++ [1] ++ be16 256 ++ [128, 128] ++ be16 256 ++ [4, 8, 4, s.settings.gsn]
      ∧ (managementHeader s.settings.gsn (s.request e) x.status x.payload).src = s.settings.gsn

/-- R151: READ TABLE refuses a bad table code, a first index outside the table and a count of 0, in this order; else it returns as
many whole images, in index order, as the count, the end of the table and the 44 bytes allow, at least one, with the next index.
It changes nothing. -/
def Obligations.ReadTableReturnsEntries : Prop :=
  ∀ (s : State) (o : Interleaving) (e : MgmtEntry), s.runs e .readTable →
    let pl := (s.request e).payload
    let first := (halfAt pl 1).toNat
    ∃ x : Executed, exec (.readTable o) s = .next (State.answer s.settings.gsn o (s.request e) x false)
      ∧ x.state = s.dropHead ∧ x.owed = none
      ∧ (TableName.ofCode (byteAt pl 0) = none → x.isRefusal s.dropHead .badTable)
      ∧ ∀ name, TableName.ofCode (byteAt pl 0) = some name →
        (name.size ≤ first → x.isRefusal s.dropHead .badIndex)
        ∧ (first < name.size → byteAt pl 3 = 0 → x.isRefusal s.dropHead .badValue)
        ∧ (first < name.size → byteAt pl 3 ≠ 0 →
          let n := min (byteAt pl 3).toNat (min (name.size - first) (44 / name.imageLength))
          1 ≤ n ∧ x.status = .ok ∧ x.payload = [byteAt pl 0, natByte n] ++ be16 (natHalf (first + n))
            ++ (List.range n).flatMap (fun k => s.imageAt name (first + k)))

/-- R152, R153: READ STATE returns the 48 bytes of section 11.4 as the state stands, for each port its state's code, its error score,
the sum of 1 for link-up UP, 2 for HOLDING and 4 for a partner HOLD, its occupancy, and the fills of D0, D1, D2, D3, G and M; READ
CALL returns the 20 bytes of the record it names or BAD_INDEX. Neither changes anything. -/
def Obligations.ReadStateAndReadCallReport : Prop :=
  (∀ (s : State) (o : Interleaving) (e : MgmtEntry), s.runs e .readState →
    let ten := fun p : Port =>
      [(match (s.port p).state with | .disabled => 0 | .config => 1 | .listen => 2 | .forward => 3 | .isolated => (4 : Byte)),
        natByte (s.port p).score,
        (if (s.port p).linkUp then 1 else 0) + (if (s.port p).ownHold ≠ none then 2 else 0)
          + (if (s.port p).partnerHold ≠ none then 4 else 0),
        natByte (s.occupancy p), natByte (s.queue p (.data 0)).length, natByte (s.queue p (.data 1)).length,
        natByte (s.queue p (.data 2)).length, natByte (s.queue p (.data 3)).length, natByte (s.queue p .g).length,
        natByte (s.queue p .m).length]
    ∃ x : Executed, exec (.readState o) s = .next (State.answer s.settings.gsn o (s.request e) x false)
      ∧ x.state = s.dropHead ∧ x.status = .ok ∧ x.owed = none
      ∧ x.payload = ten 0 ++ ten 1 ++ ten 2 ++ ten 3 ++ be16 (natHalf s.freeCount)
        ++ [natByte s.recordsInUse, natByte ((if s.freeCount ≤ s.settings.lowMark.toNat then 1 else 0)
          + (if s.settings.highMark.toNat ≤ s.recordsInUse then 2 else 0))] ++ be32 s.timeBase
      ∧ x.payload.length = 48)
  ∧ ∀ (s : State) (o : Interleaving) (e : MgmtEntry), s.runs e .readCall →
    let i := (byteAt (s.request e).payload 0).toNat
    ∃ x : Executed, exec (.readCall o) s = .next (State.answer s.settings.gsn o (s.request e) x false)
      ∧ x.state = s.dropHead ∧ x.owed = none ∧ (127 < i → x.isRefusal s.dropHead .badIndex)
      ∧ ∀ k : CallIx, k.val = i → x.status = .ok ∧ x.payload.length = 20
        ∧ let r := s.record k
          let code : Byte := match r.state with | .free => 0 | .queued => 1 | .waiting => 2
          x.payload = [code, r.gen, portByte r.reqPort, r.reqStation] ++ be16 r.reqTag
            ++ [r.reqRing.setWidth 8, r.addrStation] ++ be16 (svcHalf r.addrSvc) ++ [portByte r.tgtPort, r.tgtStation]
            ++ be16 (svcHalf r.tgtSvc) ++ [r.carriedRing.setWidth 8, natByte r.via.val] ++ be32 r.deadline

/-- R154, R155: READ EVENTS returns the event set and the capture, clears the flags it returned, keeps the capture and sets ARMED;
the notice attempts of the flags it returns have been made before it, in the order of their settings (R167, R169; log 10). That those
still waiting are made after its take and before its reply is the model's choice (log 33). READ COUNTERS returns a group's counters and, with clear 1, sets exactly those to 0. -/
def Obligations.ReadEventsAndReadCountersReport : Prop :=
  (∀ (s : State) (o : Interleaving) (e : MgmtEntry), s.runs e .readEvents →
    let c := s.events.capture
    ∃ (x : Executed) (u : State), exec (.readEvents o) s = .next (State.answer s.settings.gsn o (s.request e) x false)
      ∧ RunsDemands (s.wires.triggers.map Demand.notice) s.dropHead u
      ∧ x.state = { u with events := { u.events with flags := 0, armed := true }, wires := { u.wires with triggers := [] } }
      ∧ x.status = .ok ∧ x.owed = none ∧ (∀ f, s.flagSet f = true → u.flagSet f = true)
      ∧ x.payload = be64 u.events.flags ++ [portByte c.port, c.source, c.destination] ++ be16 (svcHalf c.service)
        ++ [c.kind.code.setWidth 8, c.status.code] ++ be16 c.detail
      ∧ x.state.events.capture = c)
  ∧ ∀ (s : State) (o : Interleaving) (e : MgmtEntry), s.runs e .readCounters →
    let pl := (s.request e).payload
    let k := s.events.counters
    ∃ x : Executed, exec (.readCounters o) s = .next (State.answer s.settings.gsn o (s.request e) x false) ∧ x.owed = none
      ∧ (4 < byteAt pl 0 → x.isRefusal s.dropHead .badIndex)
      ∧ (byteAt pl 0 ≤ 4 → 1 < byteAt pl 1 → x.isRefusal s.dropHead .badValue)
      ∧ (byteAt pl 0 ≤ 4 → byteAt pl 1 = 0 → x.state = s.dropHead ∧ x.status = .ok)
      ∧ (∀ p : Port, portByte p = byteAt pl 0 → byteAt pl 1 ≤ 1 →
        let n := (s.port p).counters
        x.status = .ok ∧ x.payload = be32 n.rxGood ++ be32 n.rxCheck ++ be32 n.nakFullSent ++ be32 n.nakBusySent ++ be32 n.txOk
            ++ be32 n.txFail ++ be32 n.txDropped
          ∧ (byteAt pl 1 = 1 → (x.state.port p).counters = ⟨0, 0, 0, 0, 0, 0, 0⟩
            ∧ x.state.events = s.events ∧ ∀ q, q ≠ p → x.state.port q = s.port q))
      ∧ (byteAt pl 0 = 4 → byteAt pl 1 ≤ 1 →
        x.status = .ok ∧ x.payload = be32 k.forwarded ++ be32 k.discarded ++ be32 k.refused ++ be32 k.callsOpened
            ++ be32 k.callsTimedOut ++ be32 k.mirrors
          ∧ (byteAt pl 1 = 1 → x.state.events = { s.events with counters := ⟨0, 0, 0, 0, 0, 0⟩ } ∧ x.state.ports = s.ports))

/-- R159: PROBE checks its parameters and then returns what the decision of such a frame would come to: 253 for the GSN's own
frames, else the settled outcome of the same judgement a decision makes. Of a refusal it tells the serving entry once step 4 has
passed, the carried ring once step 7 has, the egress port once step 9 has and the outgoing length once the rule stage has. It changes
nothing. The outgoing length it tells before the cut of a gate is DEDUCED (log 16). -/
def Obligations.ProbeForecastsDecision : Prop :=
  ∀ (s : State) (o : Interleaving) (e : MgmtEntry), s.runs e .probe →
    let pl := (s.request e).payload
    let h : Header := ⟨Kind.ofCode ((byteAt pl 5).setWidth 2), (byteAt pl 6).setWidth 2, 0, byteAt pl 2, byteAt pl 1,
      (halfAt pl 3).setWidth 12, byteAt pl 7, 0, 0, 0⟩
    let bad := 4095 < halfAt pl 3 ∨ 3 < byteAt pl 5 ∨ 3 < byteAt pl 6 ∨ 48 < byteAt pl 7
    ∃ x : Executed, exec (.probe o) s = .next (State.answer s.settings.gsn o (s.request e) x false)
      ∧ x.state = s.dropHead ∧ x.owed = none
      ∧ (3 < byteAt pl 0 → x.isRefusal s.dropHead .badIndex)
      ∧ (byteAt pl 0 ≤ 3 → bad → x.isRefusal s.dropHead .badValue)
      ∧ ∀ p : Port, portByte p = byteAt pl 0 → ¬ bad → x.status = .ok ∧ x.payload.length = 11
        ∧ (h.dst = s.settings.gsn → x.payload = [253] ++ be16 65535 ++ be16 65535 ++ be16 65535 ++ [255, 255, 255, 0])
        ∧ (h.dst ≠ s.settings.gsn →
          (s.judgeArrival p h = .unscanned ∨ s.judgeArrival p h = .noRule →
            x.payload = [255] ++ be16 65535 ++ be16 65535 ++ be16 65535 ++ [255, 255, 255, 0])
          ∧ (∀ r, s.judgeArrival p h = .discard r ∨ s.judgeArrival p h = .shortReply r →
            x.payload = [255] ++ be16 (natHalf r.val) ++ be16 65535 ++ be16 65535
              ++ [255, 255, 255, boolByte (s.rule r).mirror])
          ∧ (∀ r st d g, s.judgeArrival p h = .refusal r st d g →
            x.payload = [st.code] ++ be16 (natHalf r.val) ++ be16 d
                ++ be16 (match g.serving with | none => 65535 | some i => natHalf i.val)
                ++ [match g.carried with | none => 255 | some ring => ring.setWidth 8,
                    match g.egress with | none => 255 | some q => portByte q,
                    match g.length with | none => 255 | some n => natByte n, boolByte (s.rule r).mirror]
              ∧ (g.serving = none ↔ st = .rule ∨ st = .short ∨ st = .noService)
              ∧ (g.carried = none ↔ st ≠ .tooLong ∧ st ≠ .portDown ∧ st ≠ .noRecord)
              ∧ (g.egress = none ↔ st ≠ .noRecord) ∧ (g.length = none ↔ st = .rule ∨ st = .short))
          ∧ (∀ r len, s.judgeArrival p h = .matching r len →
            x.payload = [254] ++ be16 (natHalf r.val) ++ be16 65535 ++ be16 65535
              ++ [255, 255, natByte len, boolByte (s.rule r).mirror])
          ∧ (∀ r f, s.judgeArrival p h = .forward r f →
            x.payload = [0] ++ be16 (natHalf r.val) ++ be16 (natHalf f.addressed.val) ++ be16 (natHalf f.serving.val)
              ++ [f.carried.setWidth 8, portByte f.egress, natByte f.length, boolByte (s.rule r).mirror]))

/-- R2, R180, R71, R156: a WRITE TABLE of a rule entry or a QUEUE record replaces the entry whole with the one whose image it
brings, or is refused BAD_VALUE for a field out of its range (and BAD_INDEX for a QUEUE index above 15) with the entry kept. -/
def Obligations.WritesOfRulesAndQueueRecords : Prop :=
  (∀ (s : State) (o : Interleaving) (e : MgmtEntry), s.runs e .writeRule →
    let pl := (s.request e).payload
    let img := pl.drop 2
    let valid := byteAt img 0
    let svc := halfAt img 5
    let svcMask := halfAt img 7
    let kinds := byteAt img 9
    let maxRing := byteAt img 10
    let verdict := byteAt img 11
    let minLen := byteAt img 12
    let fixLen := byteAt img 13
    let cmdCap := byteAt img 14
    let noticeCap := byteAt img 15
    let qclass := byteAt img 16
    let urgency := byteAt img 17
    let labelMode := byteAt img 18
    let mirror := byteAt img 21
    let oneShot := byteAt img 22
    let inRange := valid ≤ 1 ∧ svc ≤ 4095 ∧ svcMask ≤ 4095 ∧ kinds ≤ 15 ∧ maxRing ≤ 3 ∧ verdict ≤ 2 ∧ minLen ≤ 48
      ∧ (fixLen ≤ 48 ∨ fixLen = 255) ∧ cmdCap ≤ 1 ∧ noticeCap ≤ 1 ∧ qclass ≤ 3 ∧ (urgency ≤ 7 ∨ urgency = 255)
      ∧ labelMode ≤ 1 ∧ mirror ≤ 1 ∧ oneShot ≤ 1 ∧ (valid = 1 → kinds ≠ 0)
    ∃ x : Executed, exec (.writeTableRule o) s = .next (State.answer s.settings.gsn o (s.request e) x false) ∧ x.owed = none
      ∧ (¬ inRange → x.isRefusal s.dropHead .badValue)
      ∧ (inRange → x.status = .ok ∧ x.payload = []
        ∧ (∀ i : RuleIx, i.val = (byteAt pl 1).toNat → some (x.state.rule i) = RuleEntry.ofImage img
            ∧ (x.state.rule i).image = img)
        ∧ (∀ i : RuleIx, i.val ≠ (byteAt pl 1).toNat → x.state.rule i = s.rule i)
        ∧ x.state.tables.services = s.tables.services ∧ x.state.tables.portRecs = s.tables.portRecs
        ∧ x.state.tables.queueRecs = s.tables.queueRecs ∧ x.state.settings = s.settings ∧ x.state.ports = s.ports))
  ∧ ∀ (s : State) (o : Interleaving) (e : MgmtEntry), s.runs e .writeQueue →
    let pl := (s.request e).payload
    let depth := byteAt pl 2
    let interval := halfAt (pl.drop 2) 1
    ∃ x : Executed, exec (.writeTableQueue o) s = .next (State.answer s.settings.gsn o (s.request e) x false) ∧ x.owed = none
      ∧ (15 < byteAt pl 1 → x.isRefusal s.dropHead .badIndex)
      ∧ (byteAt pl 1 ≤ 15 → ¬ (1 ≤ depth ∧ depth ≤ 64 ∧ interval ≤ 4095) → x.isRefusal s.dropHead .badValue)
      ∧ (byteAt pl 1 ≤ 15 → 1 ≤ depth ∧ depth ≤ 64 ∧ interval ≤ 4095 → x.status = .ok ∧ x.payload = []
        ∧ (∀ (p : Port) (d : DataQ), x.state.queueRec p d
            = if p.val * 4 + d.val = (byteAt pl 1).toNat then ⟨depth, interval⟩ else s.queueRec p d)
        ∧ x.state.tables.rules = s.tables.rules ∧ x.state.tables.services = s.tables.services
        ∧ x.state.tables.portRecs = s.tables.portRecs ∧ x.state.settings = s.settings ∧ x.state.ports = s.ports)

/-- R24 to R26, R180, R156: a WRITE TABLE of a service entry passes the range checks, then for a valid GATE the target check against
the table as it would stand, then for a valid entry the overlap check against every other valid entry; each failure keeps the entry,
and an accepted write replaces it with the one whose image it brings. -/
def Obligations.WritesOfServiceEntries : Prop :=
  ∀ (s : State) (o : Interleaving) (e : MgmtEntry), s.runs e .writeService →
    let pl := (s.request e).payload
    let img := pl.drop 2
    let valid := byteAt img 0
    let station := byteAt img 1
    let svcLo := halfAt img 2
    let svcHi := halfAt img 4
    let kind := byteAt img 6
    let ring := byteAt img 7
    let present := byteAt img 8
    let port := byteAt img 9
    let limit := byteAt img 10
    let timeout := halfAt img 11
    let target := byteAt img 13
    let entrySvc := halfAt img 14
    let words := byteAt img 16
    let cmdOk := byteAt img 17
    let noticeOk := byteAt img 18
    let inRange := valid ≤ 1 ∧ station ≤ 254 ∧ svcLo ≤ 4095 ∧ svcHi ≤ 4095 ∧ svcLo ≤ svcHi ∧ kind ≤ 2 ∧ ring ≤ 3 ∧ present ≤ 1
      ∧ port ≤ 3 ∧ limit ≤ 48 ∧ timeout ≠ 0 ∧ target ≤ 127 ∧ entrySvc ≤ 4095 ∧ words ≤ 12 ∧ cmdOk ≤ 1 ∧ noticeOk ≤ 1
    ∃ x : Executed, exec (.writeTableService o) s = .next (State.answer s.settings.gsn o (s.request e) x false) ∧ x.owed = none
      ∧ (127 < byteAt pl 1 → x.isRefusal s.dropHead .badIndex)
      ∧ ∀ i : SvcIx, i.val = (byteAt pl 1).toNat →
        (¬ inRange → x.isRefusal s.dropHead .badValue)
        ∧ (inRange → ∃ v, ServiceEntry.ofImage img = some v ∧ v.image = img ∧
          let aimed := if v.target = i then v else s.service v.target
          let usable := aimed.valid = true ∧ aimed.kind ≠ .gate ∧ aimed.svcLo ≤ v.entrySvc ∧ v.entrySvc ≤ aimed.svcHi
          let meets := ∃ j, j ≠ i ∧ (s.service j).valid = true ∧ v.station = (s.service j).station
            ∧ v.svcLo ≤ (s.service j).svcHi ∧ (s.service j).svcLo ≤ v.svcHi
          (v.valid = true → v.kind = .gate → ¬ usable → x.isRefusal s.dropHead .badTarget)
          ∧ (v.valid = true → (v.kind = .gate → usable) → meets → x.isRefusal s.dropHead .overlap)
          ∧ (v.valid = false ∨ ((v.kind = .gate → usable) ∧ ¬ meets) → x.status = .ok ∧ x.payload = []
            ∧ x.state.service i = v ∧ (∀ j, j ≠ i → x.state.service j = s.service j)
            ∧ x.state.tables.rules = s.tables.rules ∧ x.state.tables.portRecs = s.tables.portRecs
            ∧ x.state.settings = s.settings ∧ x.state.ports = s.ports ∧ x.state.calls = s.calls))

/-- R141, R4, R118, R140, R180: a WRITE TABLE of a PORT record passes its five checks in order or keeps the record; an accepted write
replaces the record alone with the one whose image it brings, changes no port state and takes or frees no buffer. -/
def Obligations.WritesOfPortRecords : Prop :=
  ∀ (s : State) (o : Interleaving) (e : MgmtEntry), s.runs e .writePort →
    let pl := (s.request e).payload
    let img := pl.drop 2
    let portRing := byteAt img 0
    let mgmtAdmit := byteAt img 1
    let ruleCount := halfAt img 3
    let quota := byteAt img 5
    let holdMark := byteAt img 6
    let resumeMark := byteAt img 7
    let holdTime := byteAt img 8
    let ackWindow := byteAt img 9
    let retry := byteAt img 10
    let arb := byteAt img 11
    let recovery := byteAt img 12
    let inRange := portRing ≤ 3 ∧ mgmtAdmit ≤ 1 ∧ ruleCount ≤ 256 ∧ 1 ≤ quota ∧ quota ≤ 240 ∧ holdMark ≤ 240 ∧ resumeMark ≤ 239
      ∧ 1 ≤ holdTime ∧ 1 ≤ ackWindow ∧ retry ≤ 15 ∧ arb ≤ 1 ∧ recovery ≤ 2
    ∃ x : Executed, exec (.writeTablePort o) s = .next (State.answer s.settings.gsn o (s.request e) x false) ∧ x.owed = none
      ∧ (3 < byteAt pl 1 → x.isRefusal s.dropHead .badIndex)
      ∧ ∀ p : Port, portByte p = byteAt pl 1 →
        (¬ inRange → x.isRefusal s.dropHead .badValue)
        ∧ (inRange → ∃ r, PortRec.ofImage img = some r ∧ r.image = img ∧
          let fits := (r.holdMark ≠ 0 → r.resumeMark < r.holdMark) ∧ r.ruleStart.toNat + r.ruleCount.toNat ≤ 256
          let meets := ∃ q, q ≠ p ∧ ∃ k : Nat,
            r.ruleStart.toNat ≤ k ∧ k < r.ruleStart.toNat + r.ruleCount.toNat
            ∧ (s.portRec q).ruleStart.toNat ≤ k ∧ k < (s.portRec q).ruleStart.toNat + (s.portRec q).ruleCount.toNat
          let windowFree := r.ackWindow = (s.portRec p).ackWindow ∨ (s.port p).state = .disabled ∨ (s.port p).state = .config
          (¬ fits → x.isRefusal s.dropHead .badValue)
          ∧ (fits → meets → x.isRefusal s.dropHead .overlap)
          ∧ (fits → ¬ meets → ¬ windowFree → x.isRefusal s.dropHead .wrongState)
          ∧ (fits → ¬ meets → windowFree → x.status = .ok ∧ x.payload = [] ∧ x.state.portRec p = r
            ∧ (∀ q, q ≠ p → x.state.portRec q = s.portRec q) ∧ x.state.tables.rules = s.tables.rules
            ∧ x.state.tables.services = s.tables.services ∧ x.state.settings = s.settings ∧ x.state.ports = s.ports
            ∧ x.state.pool = s.pool))

/-- R161, R101, R165, R87, R180: a WRITE TABLE of the GATEWAY record is refused BAD_VALUE for a field out of range, or a NOTICE_EN
that names no flag (bits 15 and 52 to 63), and WRONG_STATE for a new RESERVE the free count does not exceed; an accepted one
replaces the record with the one whose image it brings, sets the RISE or FALL flag of POOL_LOW and CALLS_HIGH where a mark was moved
across the present count, in the act of the write and no other flag, with the notice attempts of those that were clear and are
enabled (R167), and then empties the former monitor port's M when MONITOR_PORT changed, but for an entry in transmission, which is
marked: each removal releases its hold and raises TX_DROPPED (R84, R87). That POOL_LOW is judged, and its attempt made, before
CALLS_HIGH, and both before that M is emptied, is the model's choice (log 24), and so is that the notice joins G before the
management reply (log 32). -/
def Obligations.WritesOfGatewaySettings : Prop :=
  ∀ (s : State) (o : Interleaving) (e : MgmtEntry), s.runs e .writeGateway →
    let pl := (s.request e).payload
    let img := pl.drop 2
    let gsn := byteAt img 0
    let strict := byteAt img 1
    let reserve := byteAt img 2
    let readRing := byteAt img 3
    let writeRing := byteAt img 4
    let reportPort := byteAt img 6
    let reportSvc := halfAt img 7
    let noticeEn := wideAt img 9
    let monitorPort := byteAt img 17
    let monitorSvc := halfAt img 19
    let mDepth := byteAt img 21
    let highMark := byteAt img 23
    let inRange := gsn ≤ 254 ∧ strict ≤ 1 ∧ 1 ≤ reserve ∧ reserve ≤ 16 ∧ readRing ≤ 3 ∧ writeRing ≤ 3 ∧ reportPort ≤ 3
      ∧ reportSvc ≤ 4095 ∧ (∀ k, noticeEn.getLsbD k = true → k ≠ 15 ∧ k ≤ 51) ∧ (monitorPort ≤ 3 ∨ monitorPort = 255)
      ∧ monitorSvc ≤ 4095 ∧ 1 ≤ mDepth ∧ mDepth ≤ 32 ∧ 1 ≤ highMark ∧ highMark ≤ 128
    ∃ x : Executed, exec (.writeTableGateway o) s = .next (State.answer s.settings.gsn o (s.request e) x false) ∧ x.owed = none
      ∧ (byteAt pl 1 ≠ 0 → x.isRefusal s.dropHead .badIndex)
      ∧ (byteAt pl 1 = 0 → ¬ inRange → x.isRefusal s.dropHead .badValue)
      ∧ (byteAt pl 1 = 0 → inRange → ∃ r, Settings.ofImage img = some r ∧ r.image = img ∧
        (r.reserve ≠ s.settings.reserve ∧ s.freeCount ≤ r.reserve.toNat → x.isRefusal s.dropHead .wrongState)
        ∧ (¬ (r.reserve ≠ s.settings.reserve ∧ s.freeCount ≤ r.reserve.toNat) → x.status = .ok ∧ x.payload = []
          ∧ x.state.tables = { s.tables with settings := r } ∧ x.state.calls = s.calls ∧ x.state.wires.claims = s.wires.claims
            ++ (match s.settings.monitorPort with
              | none => []
              | some m => if r.monitorPort = some m then [] else ((s.queue m .m).filter (fun n => !n.inTransmission)).filterMap
                  (fun n => n.callTag.map (fun tag => Claim.undeliverable m tag true)))
          ∧ (let crossed := fun f : Flag =>
              (f = .rise .poolLow ∧ s.settings.lowMark.toNat < s.freeCount ∧ s.freeCount ≤ r.lowMark.toNat)
              ∨ (f = .fall .poolLow ∧ s.freeCount ≤ s.settings.lowMark.toNat ∧ r.lowMark.toNat < s.freeCount)
              ∨ (f = .rise .callsHigh ∧ s.recordsInUse < s.settings.highMark.toNat ∧ r.highMark.toNat ≤ s.recordsInUse)
              ∨ (f = .fall .callsHigh ∧ s.settings.highMark.toNat ≤ s.recordsInUse ∧ s.recordsInUse < r.highMark.toNat)
            (∀ f, crossed f → x.state.flagged f)
            ∧ ∃ (attempts : List Flag) (u v : State),
              attempts.Sublist [.rise .poolLow, .fall .poolLow, .rise .callsHigh, .fall .callsHigh]
              ∧ (∀ f, f ∈ attempts ↔ crossed f ∧ r.noticeEn.getLsbD (flagBit f) = true ∧ s.flagSet f = false)
              ∧ u.tables = { s.tables with settings := r } ∧ FlagsBecome s u crossed ∧ u.events.armed = s.events.armed
              ∧ u.wires = { s.wires with triggers := s.wires.triggers ++ attempts } ∧ u.ports = s.ports ∧ u.pool = s.pool
              ∧ u.calls = s.calls ∧ u.timeBase = s.timeBase ∧ RunsDemands (attempts.map Demand.notice) u v
              ∧ (s.settings.monitorPort = none ∨ r.monitorPort = s.settings.monitorPort → x.state = v)
              ∧ ∀ m, s.settings.monitorPort = some m → r.monitorPort ≠ some m →
                let gone := (s.queue m .m).filter (fun n => !n.inTransmission)
                let k := (s.port m).counters
                x.state.queue m .m = ((s.queue m .m).filter QueueEntry.inTransmission).map (fun n => { n with noRetry := .abort })
                ∧ (∀ d : DataQ, x.state.queue m (.data d) = s.queue m (.data d)) ∧ x.state.queue m .g = v.queue m .g
                ∧ (x.state.port m).counters = { k with txDropped := k.txDropped + BitVec.ofNat 32 gone.length }
                ∧ ∀ b : BufIx, (x.state.buffer b).holds = (v.buffer b).holds - gone.countP (fun n => n.buffer == some b))))

/-- R157: CLEAR TABLE clears only the RULE and SERVICE tables, in a range that is rising and lies in the table; it sets every entry
of the range, valid or not, to its reset image in one act, keeps every other, and is never refused for overlap or gates. A rule in
its reset image matches no frame, and a gate whose target is in its reset image fails at later decisions. -/
def Obligations.ClearTableResetsRange : Prop :=
  ∀ (s : State) (o : Interleaving) (e : MgmtEntry), s.runs e .clearTable →
    let pl := (s.request e).payload
    let first := (byteAt pl 1).toNat
    let last := (byteAt pl 2).toNat
    let others := fun t : State => t.tables.portRecs = s.tables.portRecs ∧ t.tables.queueRecs = s.tables.queueRecs
      ∧ t.settings = s.settings ∧ t.ports = s.ports ∧ t.calls = s.calls
    ∃ x : Executed, exec (.clearTable o) s = .next (State.answer s.settings.gsn o (s.request e) x false) ∧ x.owed = none
      ∧ (byteAt pl 0 ≠ 1 ∧ byteAt pl 0 ≠ 2 → x.isRefusal s.dropHead .badTable)
      ∧ (byteAt pl 0 = 1 ∨ byteAt pl 0 = 2 → (last < first ∨ (byteAt pl 0 = 1 ∧ 255 < last) ∨ (byteAt pl 0 = 2 ∧ 127 < last)) →
        x.isRefusal s.dropHead .badIndex)
      ∧ (byteAt pl 0 = 1 → first ≤ last → x.status = .ok ∧ x.payload = [] ∧ others x.state
        ∧ x.state.tables.services = s.tables.services
        ∧ ∀ i : RuleIx, x.state.rule i = if first ≤ i.val ∧ i.val ≤ last then RuleEntry.reset else s.rule i)
      ∧ (byteAt pl 0 = 2 → first ≤ last → last ≤ 127 → x.status = .ok ∧ x.payload = [] ∧ others x.state
        ∧ x.state.tables.rules = s.tables.rules
        ∧ ∀ i : SvcIx, x.state.service i = if first ≤ i.val ∧ i.val ≤ last then ServiceEntry.reset else s.service i)
      ∧ (∀ h ring, ruleMatches RuleEntry.reset h ring = false)
      ∧ ∀ gate, x.state.service gate.target = ServiceEntry.reset → x.state.targetUsable gate = false

/-- R126 to R139, R88, R64, R106, R122: SET PORT STATE is judged by its checks in order; an accepted transition takes the port to its
target: out of service with its work ended, score 0 and its level conditions fallen, HOLDING without HOLD 0, each request entry of
its queues and then the port itself claimed down (here where no demand of an earlier leaving waits), its FRAME under way passed over,
or none in DISABLED, and its transmitter sending idle marks or nothing (R109; a control symbol under way is finished by the model's
DEDUCED reading, log 22); into service from outside with score 0, ISOLATED and WARN fallen, a FRAME already begun passed over and the
port judged for own HOLDING at once; and between LISTEN and FORWARD with everything but the state kept. What R130 to R132 keep stays:
the return state, the counters and the frames awaiting decision, and, but for DISABLED, link-up state and idle mark count. -/
def Obligations.SetPortStateMakesTransition : Prop :=
  ∀ (s : State) (o : Interleaving) (e : MgmtEntry), s.runs e .setPortState →
    let pl := (s.request e).payload
    ∃ x : Executed, exec (.setPortState o) s = .next (State.answer s.settings.gsn o (s.request e) x false) ∧ x.owed = none
      ∧ (3 < byteAt pl 0 → x.isRefusal s.dropHead .badIndex)
      ∧ ∀ p : Port, portByte p = byteAt pl 0 →
        let old := (s.port p).state
        (3 < byteAt pl 1 → x.isRefusal s.dropHead .badValue)
        ∧ ∀ target, target ≠ .isolated → target.code = byteAt pl 1 →
          let self := p = e.port ∧ target.inService = false
          (self → x.isRefusal s.dropHead .selfPort)
          ∧ (¬ self → target = old → x.status = .ok ∧ x.payload = [] ∧ x.state = s.dropHead)
          ∧ (¬ self → target ≠ old → old = .disabled → target ≠ .config → x.isRefusal s.dropHead .wrongState)
          ∧ (¬ self → target ≠ old → (old = .disabled → target = .config) →
            x.status = .ok ∧ x.payload = [] ∧ (x.state.port p).state = target
            ∧ (target.inService = false → (x.state.port p).score = 0 ∧ (x.state.port p).quiet
              ∧ (x.state.port p).recoveryTally = 0 ∧ .portDown p ∈ x.state.wires.claims
              ∧ (∀ n ∈ x.state.mgmt.queue, n.port ≠ p)
              ∧ (x.state.port p).linkUp = ((s.port p).linkUp && target != .disabled)
              ∧ (x.state.port p).idleCount = (if target = .disabled then 0 else (s.port p).idleCount)
              ∧ (x.state.port p).reception = (if target = .disabled then .none else passedOver (s.port p).reception)
              ∧ (x.state.port p).sending = sentOnLeaving target (s.port p).sending
              ∧ (x.state.port p).returnState = (s.port p).returnState ∧ (x.state.port p).counters = (s.port p).counters
              ∧ (x.state.port p).awaiting = (s.port p).awaiting
              ∧ (old = .isolated → x.state.flagged (.fall (.isolated p)))
              ∧ (96 ≤ (s.port p).score → x.state.flagged (.fall (.warn p)))
              ∧ ((s.port p).ownHold ≠ none → x.state.flagged (.fall (.holding p)))
              ∧ (target = .disabled → (s.port p).linkUp = true → x.state.flagged (.fall (.linkUp p)))
              ∧ ((∀ d ∈ s.wires.claims, d.isLeaving p = false) →
                  WorkFlushed s.dropHead x.state p [] ((s.port p).allEntries.filterMap QueueEntry.callTag)))
            ∧ (target.inService = true → old.inService = false → (x.state.port p).score = 0
              ∧ (x.state.port p).recoveryTally = 0 ∧ (old = .isolated → x.state.flagged (.fall (.isolated p)))
              ∧ (96 ≤ (s.port p).score → x.state.flagged (.fall (.warn p)))
              ∧ (x.state.port p).linkUp = (s.port p).linkUp ∧ (x.state.port p).idleCount = (s.port p).idleCount
              ∧ (x.state.port p).reception = passedOver (s.port p).reception ∧ (x.state.port p).sending = (s.port p).sending
              ∧ (x.state.port p).returnState = (s.port p).returnState ∧ (x.state.port p).counters = (s.port p).counters
              ∧ (x.state.port p).awaiting = (s.port p).awaiting
              ∧ HoldJudged s x.state p (s.port p).control (s.occupancy p))
            ∧ (target.inService = true → old.inService = true → x.state = s.dropHead.modPort p (fun y => { y with state := target })))

/-- R84, R63, R160, R158: ABORT QUEUE removes the entries not in transmission, releasing each one's hold and raising TX_DROPPED,
claims each request's undeliverability as an abort and marks the one in transmission; where one entry is removed, the release brings
the judgements of R94, R103, R105, R106 and R165 and sets no other flag; CANCEL CALL frees a record in use, owing the CANCELLED call
reply unless silence was asked for, and CALLS_HIGH falls where the records in use come down from HIGH_MARK (R165); RESTART sets
RESTART pending for its arrival port. The CANCELLED call reply joins G of the requester's port before the management reply or after
it (R148; which of the two is the model's operand, log 11), each as far as its G has room and GW_REPLY_LOST for what it refuses
(R67). -/
def Obligations.AbortCancelAndRestart : Prop :=
  (∀ (s : State) (o : Interleaving) (e : MgmtEntry), s.runs e .abortQueue →
    let pl := (s.request e).payload
    ∃ x : Executed, exec (.abortQueue o) s = .next (State.answer s.settings.gsn o (s.request e) x false) ∧ x.owed = none
      ∧ (3 < byteAt pl 0 → x.isRefusal s.dropHead .badIndex)
      ∧ (byteAt pl 0 ≤ 3 → 5 < byteAt pl 1 → x.isRefusal s.dropHead .badValue)
      ∧ ∀ (p : Port) (q : QueueId), portByte p = byteAt pl 0 →
        (byteAt pl 1 = match q with | .data d => natByte d.val | .g => 4 | .m => 5) →
        x.status = .ok ∧ x.payload = []
        ∧ x.state.queue p q = ((s.queue p q).filter QueueEntry.inTransmission).map (fun n => { n with noRetry := .abort })
        ∧ (∀ r, r ≠ q → x.state.queue p r = s.queue p r) ∧ (x.state.port p).attempt = (s.port p).attempt
        ∧ x.state.wires.claims = s.wires.claims ++ ((s.queue p q).filter (fun n => !n.inTransmission)).filterMap
            (fun n => n.callTag.map (fun tag => Claim.undeliverable p tag true))
        ∧ (let removed := BitVec.ofNat 32 ((s.queue p q).filter (fun n => !n.inTransmission)).length
          let c := (s.port p).counters
          (x.state.port p).counters = { c with txDropped := c.txDropped + removed })
        ∧ (let gone := (s.queue p q).filter (fun n => !n.inTransmission)
          (∀ b : BufIx, (x.state.buffer b).holds = (s.buffer b).holds - gone.countP (fun n => n.buffer == some b))
          ∧ ∀ n, gone = [n] → HoldReleased s x.state n.buffer ∧ FlagsBecome s x.state (fun f => s.releaseFlags n.buffer f))
        ∧ x.state.calls = s.calls ∧ x.state.tables = s.tables)
  ∧ (∀ (s : State) (o : Interleaving) (e : MgmtEntry), s.runs e .cancelCall →
    let pl := (s.request e).payload
    ∃ x : Executed, exec (.cancelCall o) s = .next (State.answer s.settings.gsn o (s.request e) x false)
      ∧ (127 < byteAt pl 0 → x.isRefusal s.dropHead .badIndex)
      ∧ ∀ i : CallIx, i.val = (byteAt pl 0).toNat →
        (1 < byteAt pl 1 → x.isRefusal s.dropHead .badValue)
        ∧ (byteAt pl 1 ≤ 1 → (s.record i).state = .free → x.isRefusal s.dropHead .wrongState)
        ∧ (byteAt pl 1 ≤ 1 → (s.record i).state ≠ .free → x.status = .ok ∧ x.payload = []
          ∧ x.state.record i = freedRecord (s.record i) ∧ x.state.calls.freeList = s.calls.freeList ++ [i]
          ∧ x.state.wires.withdraws = s.wires.withdraws ++ (if (s.record i).state = .queued
              then [((s.record i).tgtPort, recordTag (s.record i).gen i)] else [])
          ∧ x.owed = (if byteAt pl 1 = 0 then some (s.record i) else none)
          ∧ FlagsBecome s x.state (fun f => f = .fall .callsHigh ∧ s.recordsInUse = s.settings.highMark.toNat)
          ∧ x.state.events.counters = s.events.counters ∧ x.state.ports = s.ports))
  ∧ (∀ (s : State) (after : Bool) (e : MgmtEntry) (i : CallIx), s.runs e .cancelCall →
    let h := (s.request e).header
    let pl := (s.request e).payload
    let r := s.record i
    i.val = (byteAt pl 0).toNat → byteAt pl 1 ≤ 1 → r.state ≠ .free →
    let ours := (e.port, emptyReply (s.request e).ring h.src s.settings.gsn h.svc h.tag 0 0)
    let callers := (r.reqPort, callReplyEntry r .cancelled)
    let offered := if byteAt pl 1 = 1 then [ours] else if after then [ours, callers] else [callers, ours]
    ∃ t, exec (.cancelCall ⟨after, []⟩) s = .next t ∧ ∀ q : Port,
      let mine := (offered.filter (fun m => m.1 == q)).map Prod.snd
      let room := if (s.port q).state.inService then 8 - (s.port q).gq.length else 0
      t.queue q .g = s.queue q .g ++ mine.take room ∧ (room < mine.length → t.flagged (.event .gwReplyLost)))
  ∧ ∀ (s : State) (o : Interleaving) (e : MgmtEntry), s.runs e .restart →
    ∃ x : Executed, exec (.restart o) s = .next (State.answer s.settings.gsn o (s.request e) x true)
      ∧ x.state = { s.dropHead with mgmt := { s.dropHead.mgmt with restart := .awaiting e.port } }
      ∧ x.status = .ok ∧ x.payload = [] ∧ x.owed = none

/-! ## Encodings -/

/-- R178, R180, R110, R111: decoding an encoded header gives the header back; an image that is accepted is, byte for byte, the image
of the record it gives, and a rule entry in its ranges reads back from its image; a frame as sent passes the receiver's tests. -/
def Obligations.EncodingsRoundTrip : Prop :=
  (∀ h : Header, Header.decode h.encode = h ∧ h.encode.length = 11)
  ∧ (∀ (img : List Byte) (e : RuleEntry), img.length = 23 → RuleEntry.ofImage img = some e → e.image = img)
  ∧ (∀ (img : List Byte) (e : ServiceEntry), img.length = 19 → ServiceEntry.ofImage img = some e → e.image = img)
  ∧ (∀ (img : List Byte) (r : PortRec), img.length = 13 → PortRec.ofImage img = some r → r.image = img)
  ∧ (∀ (img : List Byte) (r : QueueRec), img.length = 3 → QueueRec.ofImage img = some r → r.image = img)
  ∧ (∀ (img : List Byte) (r : Settings), img.length = 24 → Settings.ofImage img = some r → r.image = img)
  ∧ (∀ (h : Header) (payload : List Byte), payload.length ≤ 48 → h.length.toNat = payload.length →
      goodFrame (frameBytes h payload) (payload.length + 13) = true)
  ∧ ∀ e : RuleEntry, e.minLen ≤ 48 → (∀ n, e.fixLen = some n → n ≤ 48) → (e.valid = true → e.kinds.isEmpty = false) →
      RuleEntry.ofImage e.image = some e

/-! ## The pool -/

/-- R95, R101: the free count, the four occupancies and the held GATEWAY buffers always sum to 256, and an arrival never lowers
the free count below RESERVE. -/
def Obligations.PoolIsAccountedFor : Prop :=
  (∀ s : State, s.freeCount + s.occupancy 0 + s.occupancy 1 + s.occupancy 2 + s.occupancy 3 + s.gatewayHeld = 256)
  ∧ (∀ (s : State) (p : Port) (chars : List Byte), ∃ t, exec (.frameReceived p chars) s = .next t
    ∧ (t.freeCount < s.freeCount → s.settings.reserve.toNat ≤ t.freeCount))
  ∧ ∀ (s : State) (p : Port) (c : Character), ∃ t, exec (.characterRecognised p c) s = .next t
    ∧ (t.freeCount < s.freeCount → s.settings.reserve.toNat ≤ t.freeCount)

/-! ## Invariants -/

/-- R26, R4, R2, R24, R140, R71, R161: every step keeps the keys of the valid service entries disjoint, the rule blocks disjoint
and within the list, and every stored record within its ranges. -/
def Obligations.TablesStayConsistent : Prop :=
  ∀ s t : State, KeysDisjoint s ∧ BlocksDisjoint s ∧ TablesReadable s → step s = .next t →
    KeysDisjoint t ∧ BlocksDisjoint t ∧ TablesReadable t

/-- R121: every step keeps the score at most 255, and at 255 exactly on the ISOLATED ports. -/
def Obligations.ScoreKeepsTellingIsolation : Prop :=
  ∀ s t : State, ScoreTellsIsolation s → step s = .next t → ScoreTellsIsolation t

/-- R88, R106, R109: every step keeps the ports out of service quiet. -/
def Obligations.PortsOutOfServiceStayQuiet : Prop :=
  ∀ s t : State, OutOfServiceQuiet s → step s = .next t → OutOfServiceQuiet t

/-- R50: every step keeps the free list exact: each FREE record once and no record in use. -/
def Obligations.FreeListStaysExact : Prop :=
  ∀ s t : State, FreeListExact s → step s = .next t → FreeListExact t

/-- R93: every step keeps each buffer's hold count equal to the number of its holders. -/
def Obligations.HoldCountsStayHolders : Prop :=
  ∀ s t : State, HoldsAreHolders s → step s = .next t → HoldsAreHolders t

/-- R79, R74: every step keeps at most one frame in transmission on each port, the head of its queue. -/
def Obligations.OneFrameStaysInTransmission : Prop :=
  ∀ s t : State, OneFrameInTransmission s → step s = .next t → OneFrameInTransmission t

/-- R71, R73, R144, R115, R179, R167: every step keeps the fills within the limits the manual gives them, the idle mark count below
16, the places of the event set that hold no flag clear, and every flag set whose notice attempt is still to be made. -/
def Obligations.FillsStayBounded : Prop :=
  ∀ s t : State, TablesReadable s ∧ FillsBounded s ∧ EventSetInPlaces s → step s = .next t →
    FillsBounded t ∧ EventSetInPlaces t
end

