-- ==== Sys2Proof/Laws/State.lean ====
section
/-! SUPPORT. One lemma per field of State per update of State, and the views of an updated table. -/

namespace Sys2Proof.Machine

namespace State

@[simp] theorem modPort_pending (s : State) (p : Port) (f : PortSt → PortSt) : (s.modPort p f).pending = s.pending := rfl
@[simp] theorem modPort_resetAsserted (s : State) (p : Port) (f : PortSt → PortSt) : (s.modPort p f).resetAsserted = s.resetAsserted := rfl
@[simp] theorem modPort_timeBase (s : State) (p : Port) (f : PortSt → PortSt) : (s.modPort p f).timeBase = s.timeBase := rfl
@[simp] theorem modPort_tables (s : State) (p : Port) (f : PortSt → PortSt) : (s.modPort p f).tables = s.tables := rfl
@[simp] theorem modPort_ports (s : State) (p : Port) (f : PortSt → PortSt) : (s.modPort p f).ports = put s.ports p (f (look s.ports p)) := rfl
@[simp] theorem modPort_pool (s : State) (p : Port) (f : PortSt → PortSt) : (s.modPort p f).pool = s.pool := rfl
@[simp] theorem modPort_calls (s : State) (p : Port) (f : PortSt → PortSt) : (s.modPort p f).calls = s.calls := rfl
@[simp] theorem modPort_wires (s : State) (p : Port) (f : PortSt → PortSt) : (s.modPort p f).wires = s.wires := rfl
@[simp] theorem modPort_mgmt (s : State) (p : Port) (f : PortSt → PortSt) : (s.modPort p f).mgmt = s.mgmt := rfl
@[simp] theorem modPort_events (s : State) (p : Port) (f : PortSt → PortSt) : (s.modPort p f).events = s.events := rfl

@[simp] theorem modBuffer_pending (s : State) (b : BufIx) (f : Buffer → Buffer) : (s.modBuffer b f).pending = s.pending := rfl
@[simp] theorem modBuffer_resetAsserted (s : State) (b : BufIx) (f : Buffer → Buffer) : (s.modBuffer b f).resetAsserted = s.resetAsserted := rfl
@[simp] theorem modBuffer_timeBase (s : State) (b : BufIx) (f : Buffer → Buffer) : (s.modBuffer b f).timeBase = s.timeBase := rfl
@[simp] theorem modBuffer_tables (s : State) (b : BufIx) (f : Buffer → Buffer) : (s.modBuffer b f).tables = s.tables := rfl
@[simp] theorem modBuffer_ports (s : State) (b : BufIx) (f : Buffer → Buffer) : (s.modBuffer b f).ports = s.ports := rfl
@[simp] theorem modBuffer_pool (s : State) (b : BufIx) (f : Buffer → Buffer) : (s.modBuffer b f).pool = put s.pool b (f (look s.pool b)) := rfl
@[simp] theorem modBuffer_calls (s : State) (b : BufIx) (f : Buffer → Buffer) : (s.modBuffer b f).calls = s.calls := rfl
@[simp] theorem modBuffer_wires (s : State) (b : BufIx) (f : Buffer → Buffer) : (s.modBuffer b f).wires = s.wires := rfl
@[simp] theorem modBuffer_mgmt (s : State) (b : BufIx) (f : Buffer → Buffer) : (s.modBuffer b f).mgmt = s.mgmt := rfl
@[simp] theorem modBuffer_events (s : State) (b : BufIx) (f : Buffer → Buffer) : (s.modBuffer b f).events = s.events := rfl

@[simp] theorem modCount_pending (s : State) (f : GatewayCounters → GatewayCounters) : (s.modCount f).pending = s.pending := rfl
@[simp] theorem modCount_resetAsserted (s : State) (f : GatewayCounters → GatewayCounters) : (s.modCount f).resetAsserted = s.resetAsserted := rfl
@[simp] theorem modCount_timeBase (s : State) (f : GatewayCounters → GatewayCounters) : (s.modCount f).timeBase = s.timeBase := rfl
@[simp] theorem modCount_tables (s : State) (f : GatewayCounters → GatewayCounters) : (s.modCount f).tables = s.tables := rfl
@[simp] theorem modCount_ports (s : State) (f : GatewayCounters → GatewayCounters) : (s.modCount f).ports = s.ports := rfl
@[simp] theorem modCount_pool (s : State) (f : GatewayCounters → GatewayCounters) : (s.modCount f).pool = s.pool := rfl
@[simp] theorem modCount_calls (s : State) (f : GatewayCounters → GatewayCounters) : (s.modCount f).calls = s.calls := rfl
@[simp] theorem modCount_wires (s : State) (f : GatewayCounters → GatewayCounters) : (s.modCount f).wires = s.wires := rfl
@[simp] theorem modCount_mgmt (s : State) (f : GatewayCounters → GatewayCounters) : (s.modCount f).mgmt = s.mgmt := rfl
@[simp] theorem modCount_events (s : State) (f : GatewayCounters → GatewayCounters) : (s.modCount f).events = { s.events with counters := f s.events.counters } := rfl

@[simp] theorem addClaim_pending (s : State) (c : Claim) : (s.addClaim c).pending = s.pending := rfl
@[simp] theorem addClaim_resetAsserted (s : State) (c : Claim) : (s.addClaim c).resetAsserted = s.resetAsserted := rfl
@[simp] theorem addClaim_timeBase (s : State) (c : Claim) : (s.addClaim c).timeBase = s.timeBase := rfl
@[simp] theorem addClaim_tables (s : State) (c : Claim) : (s.addClaim c).tables = s.tables := rfl
@[simp] theorem addClaim_ports (s : State) (c : Claim) : (s.addClaim c).ports = s.ports := rfl
@[simp] theorem addClaim_pool (s : State) (c : Claim) : (s.addClaim c).pool = s.pool := rfl
@[simp] theorem addClaim_calls (s : State) (c : Claim) : (s.addClaim c).calls = s.calls := rfl
@[simp] theorem addClaim_wires (s : State) (c : Claim) : (s.addClaim c).wires = { s.wires with claims := s.wires.claims ++ [c] } := rfl
@[simp] theorem addClaim_mgmt (s : State) (c : Claim) : (s.addClaim c).mgmt = s.mgmt := rfl
@[simp] theorem addClaim_events (s : State) (c : Claim) : (s.addClaim c).events = s.events := rfl

@[simp] theorem addWithdraw_pending (s : State) (p : Port) (t : Tag) : (s.addWithdraw p t).pending = s.pending := rfl
@[simp] theorem addWithdraw_resetAsserted (s : State) (p : Port) (t : Tag) : (s.addWithdraw p t).resetAsserted = s.resetAsserted := rfl
@[simp] theorem addWithdraw_timeBase (s : State) (p : Port) (t : Tag) : (s.addWithdraw p t).timeBase = s.timeBase := rfl
@[simp] theorem addWithdraw_tables (s : State) (p : Port) (t : Tag) : (s.addWithdraw p t).tables = s.tables := rfl
@[simp] theorem addWithdraw_ports (s : State) (p : Port) (t : Tag) : (s.addWithdraw p t).ports = s.ports := rfl
@[simp] theorem addWithdraw_pool (s : State) (p : Port) (t : Tag) : (s.addWithdraw p t).pool = s.pool := rfl
@[simp] theorem addWithdraw_calls (s : State) (p : Port) (t : Tag) : (s.addWithdraw p t).calls = s.calls := rfl
@[simp] theorem addWithdraw_wires (s : State) (p : Port) (t : Tag) : (s.addWithdraw p t).wires = { s.wires with withdraws := s.wires.withdraws ++ [(p, t)] } := rfl
@[simp] theorem addWithdraw_mgmt (s : State) (p : Port) (t : Tag) : (s.addWithdraw p t).mgmt = s.mgmt := rfl
@[simp] theorem addWithdraw_events (s : State) (p : Port) (t : Tag) : (s.addWithdraw p t).events = s.events := rfl

@[simp] theorem setFlag_pending (s : State) (f : Flag) : (s.setFlag f).pending = s.pending := rfl
@[simp] theorem setFlag_resetAsserted (s : State) (f : Flag) : (s.setFlag f).resetAsserted = s.resetAsserted := rfl
@[simp] theorem setFlag_timeBase (s : State) (f : Flag) : (s.setFlag f).timeBase = s.timeBase := rfl
@[simp] theorem setFlag_tables (s : State) (f : Flag) : (s.setFlag f).tables = s.tables := rfl
@[simp] theorem setFlag_ports (s : State) (f : Flag) : (s.setFlag f).ports = s.ports := rfl
@[simp] theorem setFlag_pool (s : State) (f : Flag) : (s.setFlag f).pool = s.pool := rfl
@[simp] theorem setFlag_calls (s : State) (f : Flag) : (s.setFlag f).calls = s.calls := rfl
@[simp] theorem setFlag_wires (s : State) (f : Flag) : (s.setFlag f).wires = s.wires := rfl
@[simp] theorem setFlag_mgmt (s : State) (f : Flag) : (s.setFlag f).mgmt = s.mgmt := rfl
@[simp] theorem setFlag_events (s : State) (f : Flag) : (s.setFlag f).events = { s.events with flags := s.events.flags ||| flagMask f } := rfl

@[simp] theorem setRecord_pending (s : State) (i : CallIx) (r : CallRecord) : (s.setRecord i r).pending = s.pending := rfl
@[simp] theorem setRecord_resetAsserted (s : State) (i : CallIx) (r : CallRecord) : (s.setRecord i r).resetAsserted = s.resetAsserted := rfl
@[simp] theorem setRecord_timeBase (s : State) (i : CallIx) (r : CallRecord) : (s.setRecord i r).timeBase = s.timeBase := rfl
@[simp] theorem setRecord_tables (s : State) (i : CallIx) (r : CallRecord) : (s.setRecord i r).tables = s.tables := rfl
@[simp] theorem setRecord_ports (s : State) (i : CallIx) (r : CallRecord) : (s.setRecord i r).ports = s.ports := rfl
@[simp] theorem setRecord_pool (s : State) (i : CallIx) (r : CallRecord) : (s.setRecord i r).pool = s.pool := rfl
@[simp] theorem setRecord_calls (s : State) (i : CallIx) (r : CallRecord) : (s.setRecord i r).calls = { s.calls with records := put s.calls.records i r } := rfl
@[simp] theorem setRecord_wires (s : State) (i : CallIx) (r : CallRecord) : (s.setRecord i r).wires = s.wires := rfl
@[simp] theorem setRecord_mgmt (s : State) (i : CallIx) (r : CallRecord) : (s.setRecord i r).mgmt = s.mgmt := rfl
@[simp] theorem setRecord_events (s : State) (i : CallIx) (r : CallRecord) : (s.setRecord i r).events = s.events := rfl

@[simp] theorem setCapture_pending (s : State) (c : Capture) : (s.setCapture c).pending = s.pending := rfl
@[simp] theorem setCapture_resetAsserted (s : State) (c : Capture) : (s.setCapture c).resetAsserted = s.resetAsserted := rfl
@[simp] theorem setCapture_timeBase (s : State) (c : Capture) : (s.setCapture c).timeBase = s.timeBase := rfl
@[simp] theorem setCapture_tables (s : State) (c : Capture) : (s.setCapture c).tables = s.tables := rfl
@[simp] theorem setCapture_ports (s : State) (c : Capture) : (s.setCapture c).ports = s.ports := rfl
@[simp] theorem setCapture_pool (s : State) (c : Capture) : (s.setCapture c).pool = s.pool := rfl
@[simp] theorem setCapture_calls (s : State) (c : Capture) : (s.setCapture c).calls = s.calls := rfl
@[simp] theorem setCapture_wires (s : State) (c : Capture) : (s.setCapture c).wires = s.wires := rfl
@[simp] theorem setCapture_mgmt (s : State) (c : Capture) : (s.setCapture c).mgmt = s.mgmt := rfl
@[simp] theorem setCapture_events (s : State) (c : Capture) : (s.setCapture c).events = { s.events with capture := c } := rfl

@[simp] theorem setTables_pending (s : State) (f : Tables → Tables) : (s.setTables f).pending = s.pending := rfl
@[simp] theorem setTables_resetAsserted (s : State) (f : Tables → Tables) : (s.setTables f).resetAsserted = s.resetAsserted := rfl
@[simp] theorem setTables_timeBase (s : State) (f : Tables → Tables) : (s.setTables f).timeBase = s.timeBase := rfl
@[simp] theorem setTables_tables (s : State) (f : Tables → Tables) : (s.setTables f).tables = f s.tables := rfl
@[simp] theorem setTables_ports (s : State) (f : Tables → Tables) : (s.setTables f).ports = s.ports := rfl
@[simp] theorem setTables_pool (s : State) (f : Tables → Tables) : (s.setTables f).pool = s.pool := rfl
@[simp] theorem setTables_calls (s : State) (f : Tables → Tables) : (s.setTables f).calls = s.calls := rfl
@[simp] theorem setTables_wires (s : State) (f : Tables → Tables) : (s.setTables f).wires = s.wires := rfl
@[simp] theorem setTables_mgmt (s : State) (f : Tables → Tables) : (s.setTables f).mgmt = s.mgmt := rfl
@[simp] theorem setTables_events (s : State) (f : Tables → Tables) : (s.setTables f).events = s.events := rfl

@[simp] theorem disarm_pending (s : State) : (s.disarm).pending = s.pending := rfl
@[simp] theorem disarm_resetAsserted (s : State) : (s.disarm).resetAsserted = s.resetAsserted := rfl
@[simp] theorem disarm_timeBase (s : State) : (s.disarm).timeBase = s.timeBase := rfl
@[simp] theorem disarm_tables (s : State) : (s.disarm).tables = s.tables := rfl
@[simp] theorem disarm_ports (s : State) : (s.disarm).ports = s.ports := rfl
@[simp] theorem disarm_pool (s : State) : (s.disarm).pool = s.pool := rfl
@[simp] theorem disarm_calls (s : State) : (s.disarm).calls = s.calls := rfl
@[simp] theorem disarm_wires (s : State) : (s.disarm).wires = s.wires := rfl
@[simp] theorem disarm_mgmt (s : State) : (s.disarm).mgmt = s.mgmt := rfl
@[simp] theorem disarm_events (s : State) : (s.disarm).events = { s.events with armed := false } := rfl

@[simp] theorem dropTrigger_pending (s : State) (g : Flag) : (s.dropTrigger g).pending = s.pending := rfl
@[simp] theorem dropTrigger_resetAsserted (s : State) (g : Flag) : (s.dropTrigger g).resetAsserted = s.resetAsserted := rfl
@[simp] theorem dropTrigger_timeBase (s : State) (g : Flag) : (s.dropTrigger g).timeBase = s.timeBase := rfl
@[simp] theorem dropTrigger_tables (s : State) (g : Flag) : (s.dropTrigger g).tables = s.tables := rfl
@[simp] theorem dropTrigger_ports (s : State) (g : Flag) : (s.dropTrigger g).ports = s.ports := rfl
@[simp] theorem dropTrigger_pool (s : State) (g : Flag) : (s.dropTrigger g).pool = s.pool := rfl
@[simp] theorem dropTrigger_calls (s : State) (g : Flag) : (s.dropTrigger g).calls = s.calls := rfl
@[simp] theorem dropTrigger_mgmt (s : State) (g : Flag) : (s.dropTrigger g).mgmt = s.mgmt := rfl
@[simp] theorem dropTrigger_events (s : State) (g : Flag) : (s.dropTrigger g).events = s.events := rfl
@[simp] theorem dropTrigger_wires (s : State) (g : Flag) :
    (s.dropTrigger g).wires = { s.wires with triggers := s.wires.triggers.filter (· != g) } := rfl

@[simp] theorem dropHead_pending (s : State) : (s.dropHead).pending = s.pending := rfl
@[simp] theorem dropHead_resetAsserted (s : State) : (s.dropHead).resetAsserted = s.resetAsserted := rfl
@[simp] theorem dropHead_timeBase (s : State) : (s.dropHead).timeBase = s.timeBase := rfl
@[simp] theorem dropHead_tables (s : State) : (s.dropHead).tables = s.tables := rfl
@[simp] theorem dropHead_ports (s : State) : (s.dropHead).ports = s.ports := rfl
@[simp] theorem dropHead_pool (s : State) : (s.dropHead).pool = s.pool := rfl
@[simp] theorem dropHead_calls (s : State) : (s.dropHead).calls = s.calls := rfl
@[simp] theorem dropHead_wires (s : State) : (s.dropHead).wires = s.wires := rfl
@[simp] theorem dropHead_mgmt (s : State) : (s.dropHead).mgmt = { s.mgmt with queue := s.mgmt.queue.tail } := rfl
@[simp] theorem dropHead_events (s : State) : (s.dropHead).events = s.events := rfl

@[simp] theorem elapse_pending (s : State) (d : Nat) : (s.elapse d).pending = s.pending := rfl
@[simp] theorem elapse_resetAsserted (s : State) (d : Nat) : (s.elapse d).resetAsserted = s.resetAsserted := rfl
@[simp] theorem elapse_timeBase (s : State) (d : Nat) : (s.elapse d).timeBase = s.timeBase + BitVec.ofNat 32 d := rfl
@[simp] theorem elapse_tables (s : State) (d : Nat) : (s.elapse d).tables = s.tables := rfl
@[simp] theorem elapse_ports (s : State) (d : Nat) : (s.elapse d).ports = s.ports.map (portAfter d) := rfl
@[simp] theorem elapse_pool (s : State) (d : Nat) : (s.elapse d).pool = s.pool := rfl
@[simp] theorem elapse_calls (s : State) (d : Nat) : (s.elapse d).calls = s.calls := rfl
@[simp] theorem elapse_wires (s : State) (d : Nat) : (s.elapse d).wires = s.wires := rfl
@[simp] theorem elapse_mgmt (s : State) (d : Nat) : (s.elapse d).mgmt = s.mgmt := rfl
@[simp] theorem elapse_events (s : State) (d : Nat) : (s.elapse d).events = s.events := rfl

theorem port_modPort (s : State) (p q : Port) (f : PortSt → PortSt) :
    (s.modPort p f).port q = if p = q then f (s.port p) else s.port q := by
  simp only [port, modPort_ports, look_put]

@[simp] theorem port_modPort_self (s : State) (p : Port) (f : PortSt → PortSt) :
    (s.modPort p f).port p = f (s.port p) := by simp [port_modPort]

theorem buffer_modBuffer (s : State) (b c : BufIx) (f : Buffer → Buffer) :
    (s.modBuffer b f).buffer c = if b = c then f (s.buffer b) else s.buffer c := by
  simp only [buffer, modBuffer_pool, look_put]

@[simp] theorem buffer_modBuffer_self (s : State) (b : BufIx) (f : Buffer → Buffer) :
    (s.modBuffer b f).buffer b = f (s.buffer b) := by simp [buffer_modBuffer]

theorem record_setRecord (s : State) (i j : CallIx) (r : CallRecord) :
    (s.setRecord i r).record j = if i = j then r else s.record j := by
  simp only [record, setRecord_calls, look_put]

@[simp] theorem record_setRecord_self (s : State) (i : CallIx) (r : CallRecord) :
    (s.setRecord i r).record i = r := by simp [record_setRecord]

@[simp] theorem port_elapse (s : State) (d : Nat) (p : Port) : (s.elapse d).port p = portAfter d (s.port p) := by
  simp [port]

/-- What a view of the tables reads is settled by the tables. -/
theorem portRec_of_tables {s t : State} (h : t.tables = s.tables) (p : Port) : t.portRec p = s.portRec p := by
  simp [portRec, h]

theorem settings_of_tables {s t : State} (h : t.tables = s.tables) : t.settings = s.settings := by
  simp [settings, h]

end State

/-! ## The fields of a port after the passing of time -/

@[simp] theorem portAfter_state (d : Nat) (x : PortSt) : (portAfter d x).state = x.state := rfl
@[simp] theorem portAfter_returnState (d : Nat) (x : PortSt) : (portAfter d x).returnState = x.returnState := rfl
@[simp] theorem portAfter_recoveryTally (d : Nat) (x : PortSt) : (portAfter d x).recoveryTally = x.recoveryTally := rfl
@[simp] theorem portAfter_score (d : Nat) (x : PortSt) : (portAfter d x).score = x.score := rfl
@[simp] theorem portAfter_linkUp (d : Nat) (x : PortSt) : (portAfter d x).linkUp = x.linkUp := rfl
@[simp] theorem portAfter_idleCount (d : Nat) (x : PortSt) : (portAfter d x).idleCount = x.idleCount := rfl
@[simp] theorem portAfter_reception (d : Nat) (x : PortSt) : (portAfter d x).reception = x.reception := rfl
@[simp] theorem portAfter_control (d : Nat) (x : PortSt) : (portAfter d x).control = x.control := rfl
@[simp] theorem portAfter_sending (d : Nat) (x : PortSt) : (portAfter d x).sending = x.sending := rfl
@[simp] theorem portAfter_data (d : Nat) (x : PortSt) : (portAfter d x).data = x.data := rfl
@[simp] theorem portAfter_gq (d : Nat) (x : PortSt) : (portAfter d x).gq = x.gq := rfl
@[simp] theorem portAfter_mq (d : Nat) (x : PortSt) : (portAfter d x).mq = x.mq := rfl
@[simp] theorem portAfter_awaiting (d : Nat) (x : PortSt) : (portAfter d x).awaiting = x.awaiting := rfl
@[simp] theorem portAfter_counters (d : Nat) (x : PortSt) : (portAfter d x).counters = x.counters := rfl

/-! ## The queues of a port -/

@[simp] theorem queue_setQueue_self (x : PortSt) (q : QueueId) (es : List QueueEntry) : (x.setQueue q es).queue q = es := by
  cases q <;> simp [PortSt.setQueue, PortSt.queue]

theorem queue_setQueue_ne (x : PortSt) {q r : QueueId} (es : List QueueEntry) (h : q ≠ r) :
    (x.setQueue q es).queue r = x.queue r := by
  cases q <;> cases r <;> simp_all [PortSt.setQueue, PortSt.queue]

@[simp] theorem setQueue_state (x : PortSt) (q : QueueId) (es : List QueueEntry) : (x.setQueue q es).state = x.state := by
  cases q <;> rfl
@[simp] theorem setQueue_returnState (x : PortSt) (q : QueueId) (es : List QueueEntry) : (x.setQueue q es).returnState = x.returnState := by
  cases q <;> rfl
@[simp] theorem setQueue_recoveryTally (x : PortSt) (q : QueueId) (es : List QueueEntry) : (x.setQueue q es).recoveryTally = x.recoveryTally := by
  cases q <;> rfl
@[simp] theorem setQueue_score (x : PortSt) (q : QueueId) (es : List QueueEntry) : (x.setQueue q es).score = x.score := by
  cases q <;> rfl
@[simp] theorem setQueue_linkUp (x : PortSt) (q : QueueId) (es : List QueueEntry) : (x.setQueue q es).linkUp = x.linkUp := by
  cases q <;> rfl
@[simp] theorem setQueue_idleCount (x : PortSt) (q : QueueId) (es : List QueueEntry) : (x.setQueue q es).idleCount = x.idleCount := by
  cases q <;> rfl
@[simp] theorem setQueue_watch (x : PortSt) (q : QueueId) (es : List QueueEntry) : (x.setQueue q es).watch = x.watch := by
  cases q <;> rfl
@[simp] theorem setQueue_reception (x : PortSt) (q : QueueId) (es : List QueueEntry) : (x.setQueue q es).reception = x.reception := by
  cases q <;> rfl
@[simp] theorem setQueue_control (x : PortSt) (q : QueueId) (es : List QueueEntry) : (x.setQueue q es).control = x.control := by
  cases q <;> rfl
@[simp] theorem setQueue_sending (x : PortSt) (q : QueueId) (es : List QueueEntry) : (x.setQueue q es).sending = x.sending := by
  cases q <;> rfl
@[simp] theorem setQueue_attempt (x : PortSt) (q : QueueId) (es : List QueueEntry) : (x.setQueue q es).attempt = x.attempt := by
  cases q <;> rfl
@[simp] theorem setQueue_intervals (x : PortSt) (q : QueueId) (es : List QueueEntry) : (x.setQueue q es).intervals = x.intervals := by
  cases q <;> rfl
@[simp] theorem setQueue_partnerHold (x : PortSt) (q : QueueId) (es : List QueueEntry) : (x.setQueue q es).partnerHold = x.partnerHold := by
  cases q <;> rfl
@[simp] theorem setQueue_ownHold (x : PortSt) (q : QueueId) (es : List QueueEntry) : (x.setQueue q es).ownHold = x.ownHold := by
  cases q <;> rfl
@[simp] theorem setQueue_awaiting (x : PortSt) (q : QueueId) (es : List QueueEntry) : (x.setQueue q es).awaiting = x.awaiting := by
  cases q <;> rfl
@[simp] theorem setQueue_counters (x : PortSt) (q : QueueId) (es : List QueueEntry) : (x.setQueue q es).counters = x.counters := by
  cases q <;> rfl

end Sys2Proof.Machine
end

