-- ==== Sys2Proof/Laws/Frame.lean ====
section
/-! SUPPORT. What no operation outside the management writes and the resets touches: the tables, the waiting commands and the
reset pin. One lemma per shared operation. -/

namespace Sys2Proof.Machine

/-- The two states have the same tables, waiting commands and reset pin. -/
structure Keeps (s t : State) : Prop where
  tables : t.tables = s.tables
  pending : t.pending = s.pending
  resetAsserted : t.resetAsserted = s.resetAsserted

namespace Keeps

theorem refl (s : State) : Keeps s s := ⟨rfl, rfl, rfl⟩

theorem trans {s t u : State} (h : Keeps s t) (k : Keeps t u) : Keeps s u :=
  ⟨k.tables.trans h.tables, k.pending.trans h.pending, k.resetAsserted.trans h.resetAsserted⟩

/-- `trans` with the later operation named first. -/
theorem before {s t u : State} (k : Keeps t u) (h : Keeps s t) : Keeps s u := h.trans k

theorem foldl {α : Type} {f : State → α → State} (h : ∀ s a, Keeps s (f s a)) (l : List α) (s : State) :
    Keeps s (l.foldl f s) := by
  induction l generalizing s with
  | nil => exact refl s
  | cons a l ih => exact (h s a).trans (ih (f s a))

theorem settings {s t : State} (h : Keeps s t) : t.settings = s.settings := State.settings_of_tables h.tables

theorem portRec {s t : State} (h : Keeps s t) (p : Port) : t.portRec p = s.portRec p := State.portRec_of_tables h.tables p

/-- An operation that keeps the frame, chosen by a condition. -/
theorem ite {s t u : State} {c : Prop} [Decidable c] (h : Keeps s t) (k : Keeps s u) : Keeps s (if c then t else u) := by
  split
  · exact h
  · exact k

end Keeps

open Keeps

theorem keeps_modPort (s : State) (p : Port) (f : PortSt → PortSt) : Keeps s (s.modPort p f) := ⟨rfl, rfl, rfl⟩
theorem keeps_modPortCount (s : State) (p : Port) (f : PortCounters → PortCounters) : Keeps s (s.modPortCount p f) :=
  ⟨rfl, rfl, rfl⟩
theorem keeps_modBuffer (s : State) (b : BufIx) (f : Buffer → Buffer) : Keeps s (s.modBuffer b f) := ⟨rfl, rfl, rfl⟩
theorem keeps_modCount (s : State) (f : GatewayCounters → GatewayCounters) : Keeps s (s.modCount f) := ⟨rfl, rfl, rfl⟩
theorem keeps_addClaim (s : State) (c : Claim) : Keeps s (s.addClaim c) := ⟨rfl, rfl, rfl⟩
theorem keeps_addWithdraw (s : State) (p : Port) (t : Tag) : Keeps s (s.addWithdraw p t) := ⟨rfl, rfl, rfl⟩
theorem keeps_setFlag (s : State) (f : Flag) : Keeps s (s.setFlag f) := ⟨rfl, rfl, rfl⟩
theorem keeps_setRecord (s : State) (i : CallIx) (r : CallRecord) : Keeps s (s.setRecord i r) := ⟨rfl, rfl, rfl⟩
theorem keeps_discarded (s : State) : Keeps s s.discarded := ⟨rfl, rfl, rfl⟩
theorem keeps_forwarded (s : State) : Keeps s s.forwarded := ⟨rfl, rfl, rfl⟩
theorem keeps_disarm (s : State) : Keeps s s.disarm := ⟨rfl, rfl, rfl⟩
theorem keeps_setReception (s : State) (p : Port) (r : Reception) : Keeps s (s.setReception p r) := ⟨rfl, rfl, rfl⟩
theorem keeps_elapse (s : State) (d : Nat) : Keeps s (s.elapse d) := ⟨rfl, rfl, rfl⟩
theorem keeps_dropHead (s : State) : Keeps s s.dropHead := ⟨rfl, rfl, rfl⟩

theorem keeps_raise (s : State) (f : Flag) : Keeps s (s.raise f) := by
  unfold State.raise
  exact Keeps.ite ⟨rfl, rfl, rfl⟩ (keeps_setFlag s f)

theorem keeps_judge (s : State) (l : Level) (was : Bool) : Keeps s (s.judge l was) := by
  unfold State.judge
  exact Keeps.ite (Keeps.refl s) (Keeps.ite (keeps_raise s _) (keeps_raise s _))

theorem keeps_judgePort (s : State) (p : Port) (before : State) : Keeps s (s.judgePort p before) :=
  (((keeps_judge s _ _).trans (keeps_judge _ _ _)).trans (keeps_judge _ _ _)).trans (keeps_judge _ _ _)

/-! ## Buffers, own HOLD and queues -/

theorem keeps_pushControl (s : State) (p : Port) (c : Control) : Keeps s (s.pushControl p c) := keeps_modPort s p _

theorem keeps_startHold (s : State) (p : Port) : Keeps s (s.startHold p) :=
  ((keeps_pushControl s p _).trans (keeps_modPort _ p _)).trans (keeps_judge _ _ _)

theorem keeps_endHold (s : State) (p : Port) : Keeps s (s.endHold p) :=
  ((keeps_pushControl s p _).trans (keeps_modPort _ p _)).trans (keeps_judge _ _ _)

theorem keeps_judgeHold (s : State) (p : Port) : Keeps s (s.judgeHold p) := by
  unfold State.judgeHold
  split
  · split
    · exact Keeps.ite (keeps_startHold s p) (Keeps.refl s)
    · exact Keeps.ite (keeps_endHold s p) (Keeps.refl s)
  · exact Keeps.refl s

theorem keeps_changeBuffer (s : State) (b : BufIx) (f : Buffer → Buffer) : Keeps s (s.changeBuffer b f) :=
  (keeps_modBuffer s b f).trans (keeps_judge _ _ _)

theorem keeps_release (s : State) (b : BufIx) : Keeps s (s.release b) := by
  unfold State.release
  split
  · exact Keeps.refl s
  · split
    · split
      · exact (keeps_changeBuffer s b _).trans (keeps_judgeHold _ _)
      · exact keeps_changeBuffer s b _
    · exact keeps_modBuffer s b _

theorem keeps_releaseOpt (s : State) (b : Option BufIx) : Keeps s (s.releaseOpt b) := by
  cases b
  · exact Keeps.refl s
  · exact keeps_release s _

theorem keeps_holdOpt (s : State) (b : Option BufIx) : Keeps s (s.holdOpt b) := by
  cases b
  · exact Keeps.refl s
  · exact ⟨rfl, rfl, rfl⟩

theorem keeps_setQueue (s : State) (p : Port) (q : QueueId) (es : List QueueEntry) : Keeps s (s.setQueue p q es) :=
  keeps_modPort s p _

/-- What an accepted delivery does: the queue accepted it, the entry joined the back, and the buffer it names has one more
holder. -/
theorem deliver_eq_some {s t : State} {p : Port} {q : QueueId} {e : QueueEntry} :
    s.deliver p q e = some t ↔ s.accepts p q = true ∧ t = (s.setQueue p q (s.queue p q ++ [e])).holdOpt e.buffer := by
  unfold State.deliver
  constructor
  · intro h
    split at h
    · exact ⟨by assumption, (Option.some.inj h).symm⟩
    · exact absurd h (by simp)
  · rintro ⟨ha, rfl⟩
    simp [ha]

theorem deliver_eq_none {s : State} {p : Port} {q : QueueId} {e : QueueEntry} :
    s.deliver p q e = none ↔ s.accepts p q = false := by
  unfold State.deliver
  split <;> simp_all

theorem keeps_deliver {s t : State} {p : Port} {q : QueueId} {e : QueueEntry} (h : s.deliver p q e = some t) : Keeps s t := by
  obtain ⟨_, rfl⟩ := deliver_eq_some.mp h
  exact (keeps_setQueue s p q _).trans (keeps_holdOpt _ _)

theorem keeps_reportRestart (s : State) : Keeps s s.reportRestart := by
  unfold State.reportRestart
  split <;> exact ⟨rfl, rfl, rfl⟩

theorem keeps_entryLeft (s : State) (e : QueueEntry) : Keeps s (s.entryLeft e) :=
  (Keeps.ite (keeps_reportRestart s) (Keeps.refl s)).trans (keeps_releaseOpt _ _)

theorem keeps_offerReply (s : State) (p : Port) (e : QueueEntry) : Keeps s (s.offerReply p e) := by
  unfold State.offerReply
  split
  · exact keeps_deliver (by assumption)
  · exact keeps_raise s _

theorem keeps_abortEntry (p : Port) (s : State) (e : QueueEntry) : Keeps s (s.abortEntry p e) := by
  unfold State.abortEntry
  split
  · exact ((keeps_modPortCount s p _).trans (keeps_entryLeft _ e)).trans (keeps_addClaim _ _)
  · exact (keeps_modPortCount s p _).trans (keeps_entryLeft _ e)

theorem keeps_abortQueue (s : State) (p : Port) (q : QueueId) : Keeps s (s.abortQueue p q) :=
  (Keeps.foldl (keeps_abortEntry p) _ _).before (keeps_setQueue s p q _)

/-! ## The call table -/

theorem keeps_openRecord (s : State) (i : CallIx) (r : CallRecord) : Keeps s (s.openRecord i r) :=
  (keeps_judge _ _ _).before ⟨rfl, rfl, rfl⟩

theorem keeps_freeRecord (s : State) (i : CallIx) : Keeps s (s.freeRecord i) := by
  unfold State.freeRecord
  exact Keeps.ite ((keeps_judge _ _ _).before ⟨rfl, rfl, rfl⟩) (Keeps.refl s)

theorem keeps_withdrawIfQueued (s : State) (i : CallIx) : Keeps s (s.withdrawIfQueued i) :=
  Keeps.ite (keeps_addWithdraw s _ _) (Keeps.refl s)

theorem keeps_sendCallReply (s : State) (r : CallRecord) (st : Status) : Keeps s (s.sendCallReply r st) :=
  keeps_offerReply s _ _

theorem keeps_takeDelivered (s : State) (t : Tag) : Keeps s (s.takeDelivered t) := by
  unfold State.takeDelivered
  split
  · exact Keeps.refl s
  · exact Keeps.ite (keeps_setRecord s _ _) (Keeps.refl s)

theorem keeps_takeUndeliverable (s : State) (t : Tag) (a : Bool) : Keeps s (s.takeUndeliverable t a) := by
  unfold State.takeUndeliverable
  split
  · exact Keeps.refl s
  · exact Keeps.ite
      (Keeps.ite ((keeps_freeRecord s _).trans (keeps_sendCallReply _ _ _))
        (((keeps_freeRecord s _).trans (keeps_sendCallReply _ _ _)).trans (keeps_raise _ _)))
      (Keeps.refl s)

theorem keeps_portDownRecord (p : Port) (s : State) (i : CallIx) : Keeps s (s.portDownRecord p i) := by
  unfold State.portDownRecord
  exact Keeps.ite ((keeps_freeRecord s i).trans (keeps_sendCallReply _ _ _))
    (Keeps.ite ((keeps_withdrawIfQueued s i).trans (keeps_freeRecord _ i))
      (Keeps.ite (keeps_freeRecord s i) (Keeps.refl s)))

theorem keeps_takeClaim (s : State) (c : Claim) : Keeps s (s.takeClaim c) := by
  cases c with
  | delivered p t => exact keeps_takeDelivered s t
  | undeliverable p t a => exact keeps_takeUndeliverable s t a
  | targetPortDown p t =>
    show Keeps s (s.takeTargetPortDown p t)
    unfold State.takeTargetPortDown
    split
    · exact Keeps.refl s
    · exact keeps_portDownRecord p s _
  | portDown p => exact Keeps.foldl (keeps_portDownRecord p) _ s

theorem keeps_takeOldest (s : State) (sort : Claim → Bool) : Keeps s (s.takeOldest sort) := by
  unfold State.takeOldest
  split
  · exact Keeps.refl s
  · exact (keeps_takeClaim _ _).before ⟨rfl, rfl, rfl⟩

theorem keeps_settleDemands (s : State) (p : Port) : Keeps s (s.settleDemands p) :=
  (Keeps.foldl keeps_takeClaim _ _).before ⟨rfl, rfl, rfl⟩

theorem keeps_withdrawFrom (p : Port) (t : Tag) (s : State) (q : DataQ) : Keeps s (s.withdrawFrom p t q) :=
  (Keeps.foldl keeps_entryLeft _ _).before (keeps_setQueue s p _ _)

theorem keeps_withdrawStep (s : State) (p : Port) (t : Tag) : Keeps s (s.withdrawStep p t) := by
  unfold State.withdrawStep
  exact Keeps.ite ((Keeps.foldl (keeps_withdrawFrom p t) _ _).before ⟨rfl, rfl, rfl⟩) (Keeps.refl s)

theorem keeps_expire (s : State) (i : CallIx) : Keeps s (s.expire i) :=
  ((((keeps_withdrawIfQueued s i).trans (keeps_freeRecord _ i)).trans (keeps_sendCallReply _ _ _)).trans
    (keeps_raise _ _)).trans (keeps_modCount _ _)

theorem keeps_callExpiry (s : State) (i : CallIx) : Keeps s (s.callExpiry i) := by
  unfold State.callExpiry
  exact Keeps.ite ((keeps_elapse s _).trans (keeps_expire _ i)) (Keeps.refl s)

/-! ## Port states -/

theorem keeps_flushEntry (p : Port) (s : State) (e : QueueEntry) : Keeps s (s.flushEntry p e) := by
  unfold State.flushEntry
  split
  · exact (keeps_entryLeft s e).trans (keeps_addClaim _ _)
  · exact keeps_entryLeft s e

theorem keeps_dropMgmt (s : State) (p : Port) : Keeps s (s.dropMgmt p) :=
  (Keeps.foldl (fun s (e : MgmtEntry) => keeps_release s e.buffer) _ _).before ⟨rfl, rfl, rfl⟩

theorem keeps_leaveService (s : State) (p : Port) (target : PortState) : Keeps s (s.leaveService p target) :=
  ((((keeps_settleDemands s p).trans ((keeps_modPort _ p _).trans (keeps_judgePort _ p _))).trans
    (Keeps.foldl (keeps_flushEntry p) _ _)).trans (keeps_addClaim _ _)).trans (keeps_dropMgmt _ p)

theorem keeps_enterService (s : State) (p : Port) (target : PortState) : Keeps s (s.enterService p target) :=
  ((keeps_settleDemands s p).trans ((keeps_modPort _ p _).trans (keeps_judgePort _ p _))).trans (keeps_judgeHold _ p)

theorem keeps_transition (s : State) (p : Port) (target : PortState) : Keeps s (s.transition p target) := by
  unfold State.transition
  exact Keeps.ite (Keeps.ite (keeps_modPort s p _) (keeps_enterService s p target)) (keeps_leaveService s p target)

theorem keeps_raiseScore (s : State) (p : Port) (n : Nat) : Keeps s (s.raiseScore p n) := by
  unfold State.raiseScore
  exact Keeps.ite (Keeps.ite (keeps_leaveService s p _) ((keeps_modPort s p _).trans (keeps_judge _ _ _))) (Keeps.refl s)

theorem keeps_lowerScore (s : State) (p : Port) : Keeps s (s.lowerScore p) := by
  unfold State.lowerScore
  exact Keeps.ite ((keeps_modPort s p _).trans (keeps_judge _ _ _)) (Keeps.refl s)

theorem keeps_recoveryRun (s : State) (p : Port) : Keeps s (s.recoveryRun p) := by
  unfold State.recoveryRun
  refine Keeps.ite ?_ (Keeps.refl s)
  refine (keeps_modPort s p _).trans (Keeps.ite ?_ (Keeps.refl _))
  split
  · exact (keeps_enterService _ p _).trans (keeps_raise _ _)
  · exact Keeps.refl _

theorem keeps_clearTally (s : State) (p : Port) : Keeps s (s.clearTally p) :=
  Keeps.ite (keeps_modPort s p _) (Keeps.refl s)

/-! ## The line and admission -/

theorem keeps_handIdleRun (s : State) (p : Port) : Keeps s (s.handIdleRun p) :=
  ((keeps_modPort s p _).trans (keeps_judge _ _ _)).trans (keeps_recoveryRun _ p)

theorem keeps_lineIdleRun (s : State) (p : Port) : Keeps s (s.lineIdleRun p) :=
  (keeps_modPort s p _).trans (keeps_handIdleRun _ p)

theorem keeps_lineCharacter (s : State) (p : Port) (idle : Bool) : Keeps s (s.lineCharacter p idle) :=
  Keeps.ite (Keeps.refl s) (Keeps.ite (keeps_lineIdleRun s p) (keeps_modPort s p _))

theorem keeps_lineUnrecognised (s : State) (p : Port) : Keeps s (s.lineUnrecognised p) :=
  Keeps.ite (Keeps.refl s) ((keeps_modPort s p _).trans (keeps_clearTally _ p))

theorem keeps_lineLoss (s : State) (p : Port) : Keeps s (s.lineLoss p) :=
  ((keeps_modPort s p _).trans (keeps_judge _ _ _)).trans (keeps_clearTally _ p)

theorem keeps_badFrame (s : State) (p : Port) : Keeps s (s.badFrame p) :=
  ((keeps_pushControl s p _).trans (keeps_modPortCount _ p _)).trans (keeps_raiseScore _ p _)

theorem keeps_breakReception (s : State) (p : Port) : Keeps s (s.breakReception p) :=
  Keeps.ite ((keeps_modPort s p _).trans (keeps_badFrame _ p)) (keeps_modPort s p _)

theorem keeps_receiveCharacter (s : State) (p : Port) (c : Character) : Keeps s (s.receiveCharacter p c) := by
  cases c with
  | start => exact (keeps_setReception _ p _).before (keeps_breakReception s p)
  | data b =>
    simp only [State.receiveCharacter]
    split
    · exact keeps_setReception s p _
    · exact Keeps.refl s
    · exact Keeps.refl s
  | endChar => exact Keeps.refl s
  | idleMark => exact keeps_breakReception s p
  | control => exact keeps_breakReception s p

theorem keeps_nakBusy (s : State) (p : Port) : Keeps s (s.nakBusy p) :=
  (keeps_pushControl s p _).trans (keeps_modPortCount _ p _)

theorem keeps_nakFull (s : State) (p : Port) : Keeps s (s.nakFull p) :=
  (keeps_pushControl s p _).trans (keeps_modPortCount _ p _)

theorem keeps_queueAdmitted (s : State) (p : Port) (b : BufIx) (m : Bool) : Keeps s (s.queueAdmitted p b m) :=
  Keeps.ite ⟨rfl, rfl, rfl⟩ (keeps_modPort s p _)

theorem keeps_admitFrame (s : State) (p : Port) (b : BufIx) (image payload : List Byte) (m : Bool) :
    Keeps s (s.admitFrame p b image payload m) :=
  (((((keeps_changeBuffer s b _).trans (keeps_pushControl _ p _)).trans (keeps_modPortCount _ p _)).trans
    (keeps_lowerScore _ p)).trans (keeps_queueAdmitted _ p b m)).trans (keeps_judgeHold _ p)

theorem keeps_admission (s : State) (p : Port) (image payload : List Byte) : Keeps s (s.admission p image payload) := by
  unfold State.admission
  refine Keeps.ite (keeps_nakBusy s p) (Keeps.ite (keeps_nakBusy s p) (Keeps.ite (keeps_nakBusy s p)
    (Keeps.ite ((keeps_nakFull s p).trans (keeps_raise _ _)) (Keeps.ite (keeps_nakFull s p) ?_))))
  split
  · exact Keeps.refl s
  · exact keeps_admitFrame s p _ _ _ _

theorem keeps_arriveFrame (s : State) (p : Port) (chars : List Byte) : Keeps s (s.arriveFrame p chars) := by
  have h : Keeps s ((s.lineCharacter p false).setReception p .none) :=
    (keeps_lineCharacter s p false).trans (keeps_modPort _ p _)
  exact Keeps.ite (h.trans (Keeps.ite (keeps_admission _ p _ _) (keeps_badFrame _ p))) h

theorem keeps_arriveCharacter (s : State) (p : Port) (c : Character) : Keeps s (s.arriveCharacter p c) :=
  Keeps.ite (Keeps.refl s) (Keeps.ite (keeps_arriveFrame s p [])
    ((keeps_receiveCharacter s p c).trans (keeps_lineCharacter _ p _)))

theorem keeps_arriveUnrecognised (s : State) (p : Port) : Keeps s (s.arriveUnrecognised p) :=
  Keeps.ite (Keeps.refl s) ((keeps_breakReception s p).trans (keeps_lineUnrecognised _ p))

theorem keeps_arriveLoss (s : State) (p : Port) : Keeps s (s.arriveLoss p) := by
  unfold State.arriveLoss
  split
  · exact Keeps.refl s
  · split
    · exact Keeps.refl s
    · exact ((keeps_elapse s _).trans (keeps_breakReception _ p)).trans (keeps_lineLoss _ p)

theorem keeps_arriveIdleRun (s : State) (p : Port) : Keeps s (s.arriveIdleRun p) :=
  Keeps.ite (Keeps.refl s) (((keeps_breakReception s p).trans (keeps_modPort _ p _)).trans (keeps_handIdleRun _ p))

theorem keeps_arriveBroken (s : State) (p : Port) (i : Interruption) : Keeps s (s.arriveBroken p i) := by
  have h : Keeps s ((s.lineCharacter p false).setReception p .none) :=
    (keeps_lineCharacter s p false).trans (keeps_modPort _ p _)
  have k : Keeps s (if ((s.lineCharacter p false).setReception p .none).receives p
        && ((s.lineCharacter p false).port p).reception != .passingOver then ((s.lineCharacter p false).setReception p .none).badFrame p
      else (s.lineCharacter p false).setReception p .none) := Keeps.ite (h.trans (keeps_badFrame _ p)) h
  cases i with
  | character c => exact k.trans (keeps_arriveCharacter _ p c)
  | unrecognised => exact k.trans (keeps_arriveUnrecognised _ p)
  | lossOfSignal => exact k.trans (keeps_arriveLoss _ p)

/-! ## The transmitter and the scheduler -/

theorem keeps_startAttempt (s : State) (p : Port) (q : QueueId) : Keeps s (s.startAttempt p q) := by
  unfold State.startAttempt
  split
  · exact Keeps.refl s
  · exact (keeps_setQueue s p q _).trans (keeps_modPort _ p _)

theorem keeps_attemptStart (s : State) (p : Port) : Keeps s (s.attemptStart p) := by
  unfold State.attemptStart
  split
  · split
    · exact Keeps.refl s
    · exact keeps_startAttempt s p _
  · exact Keeps.refl s

theorem keeps_frameSent (s : State) (p : Port) : Keeps s (s.frameSent p) := by
  unfold State.frameSent
  split
  · exact Keeps.refl s
  · split
    · exact Keeps.refl s
    · split <;> exact ⟨rfl, rfl, rfl⟩

theorem keeps_nextSymbol (s : State) (p : Port) : Keeps s (s.nextSymbol p) := by
  unfold State.nextSymbol
  split
  · exact ⟨rfl, rfl, rfl⟩
  · split
    · exact ⟨rfl, rfl, rfl⟩
    · split <;> exact ⟨rfl, rfl, rfl⟩

theorem keeps_symbolAfter (s : State) (p : Port) : Keeps s (s.symbolAfter p) := by
  unfold State.symbolAfter
  split
  · exact keeps_modPort s p _
  · exact keeps_modPort s p _
  · exact keeps_modPort s p _
  · exact keeps_nextSymbol s p
  · exact keeps_nextSymbol s p

theorem keeps_symbolEnd (s : State) (p : Port) : Keeps s (s.symbolEnd p) :=
  Keeps.ite (Keeps.ite (Keeps.refl s) ((keeps_frameSent s p).trans (keeps_symbolAfter _ p))) (keeps_symbolAfter s p)

theorem keeps_startInterval (s : State) (p : Port) (q : QueueId) : Keeps s (s.startInterval p q) := by
  cases q <;> exact ⟨rfl, rfl, rfl⟩

theorem keeps_claimFor (s : State) (e : QueueEntry) (c : Tag → Claim) : Keeps s (s.claimFor e c) := by
  unfold State.claimFor
  split
  · exact Keeps.refl s
  · exact keeps_addClaim s _

theorem keeps_completeAck (s : State) (p : Port) : Keeps s (s.completeAck p) := by
  unfold State.completeAck
  split
  · exact Keeps.refl s
  · split
    · exact keeps_modPort s p _
    · exact ((((((keeps_modPort s p _).trans (keeps_setQueue _ p _ _)).trans (keeps_entryLeft _ _)).trans
        (keeps_modPortCount _ p _)).trans (keeps_claimFor _ _ _)).trans (keeps_startInterval _ p _)).trans
          (keeps_lowerScore _ p)

theorem keeps_completeFailure (s : State) (p : Port) : Keeps s (s.completeFailure p) := by
  unfold State.completeFailure
  split
  · exact Keeps.refl s
  · split
    · exact keeps_modPort s p _
    · have h := (keeps_modPort s p (fun x => { x with attempt := none })).trans
        (keeps_modPortCount (s.endAttempt p) p (fun c => { c with txFail := c.txFail + 1 }))
      exact Keeps.ite
        ((((h.trans (keeps_setQueue _ p _ _)).trans (keeps_entryLeft _ _)).trans (keeps_modPortCount _ p _)).trans
          (keeps_claimFor _ _ _))
        (h.trans (keeps_setQueue _ p _ _))

theorem keeps_failAttempt (s : State) (p : Port) (r : Bool) : Keeps s (s.failAttempt p r) :=
  Keeps.ite ((keeps_completeFailure s p).trans (keeps_raiseScore _ p _)) (keeps_completeFailure s p)

theorem keeps_ackReceived (s : State) (p : Port) : Keeps s (s.ackReceived p) :=
  (keeps_arriveCharacter s p _).trans (Keeps.ite (keeps_completeAck _ p) (Keeps.refl _))

theorem keeps_nakReceived (s : State) (p : Port) (r : NakReason) : Keeps s (s.nakReceived p r) :=
  (keeps_arriveCharacter s p _).trans (Keeps.ite (keeps_failAttempt _ p _) (Keeps.refl _))

theorem keeps_strayAnswer (s : State) (p : Port) : Keeps s (s.strayAnswer p) :=
  Keeps.ite (Keeps.refl s) (keeps_arriveCharacter s p _)

theorem keeps_ackWindowExpiry (s : State) (p : Port) : Keeps s (s.ackWindowExpiry p) := by
  unfold State.ackWindowExpiry
  split
  · exact Keeps.refl s
  · split
    · exact (keeps_elapse s _).trans (keeps_failAttempt _ p _)
    · exact Keeps.refl s
    · exact Keeps.refl s

theorem keeps_holdReceived (s : State) (p : Port) (d : Byte) : Keeps s (s.holdReceived p d) :=
  (keeps_arriveCharacter s p _).trans (Keeps.ite (keeps_modPort _ p _) (Keeps.refl _))

theorem keeps_partnerHoldExpiry (s : State) (p : Port) : Keeps s (s.partnerHoldExpiry p) := by
  unfold State.partnerHoldExpiry
  split <;> exact ⟨rfl, rfl, rfl⟩

theorem keeps_intervalExpiry (s : State) (p : Port) (q : DataQ) : Keeps s (s.intervalExpiry p q) := by
  unfold State.intervalExpiry
  split <;> exact ⟨rfl, rfl, rfl⟩

theorem keeps_holdResendExpiry (s : State) (p : Port) : Keeps s (s.holdResendExpiry p) := by
  unfold State.holdResendExpiry
  split <;> exact ⟨rfl, rfl, rfl⟩

/-! ## The decision unit -/

theorem keeps_raiseOpt (s : State) (e : Option EventFlag) : Keeps s (s.raiseOpt e) := by
  cases e
  · exact Keeps.refl s
  · exact keeps_raise s _

theorem keeps_refuse (s : State) (p : Port) (h : Header) (st : Status) (d : Half) : Keeps s (s.refuse p h st d) := by
  have k : Keeps s (((s.setCapture ⟨p, h.src, h.dst, h.svc, h.kind, st, d⟩).modCount
      (fun c => { c with refused := c.refused + 1 })).raiseOpt (refusalFlag st)) :=
    (keeps_raiseOpt _ _).before ⟨rfl, rfl, rfl⟩
  exact Keeps.ite (k.trans (keeps_offerReply _ _ _)) k

theorem keeps_forwardRequest (s : State) (p : Port) (b : BufIx) (h : Header) (r : RuleIx) (f : Forwarding) :
    Keeps s (s.forwardRequest p b h r f).1 := by
  unfold State.forwardRequest
  split
  · exact Keeps.refl s
  · dsimp only
    split
    · exact ((keeps_openRecord s _ _).trans (keeps_deliver (by assumption))).trans (keeps_forwarded _)
    · exact ((keeps_openRecord s _ _).trans (keeps_freeRecord _ _)).trans (keeps_sendCallReply _ _ _)

theorem keeps_forwardNotice (s : State) (b : BufIx) (h : Header) (r : RuleIx) (f : Forwarding) :
    Keeps s (s.forwardNotice b h r f).1 := by
  unfold State.forwardNotice
  split
  · exact (keeps_deliver (by assumption)).trans (keeps_forwarded _)
  · exact keeps_discarded s

theorem keeps_deliverReply (s : State) (b : BufIx) (h : Header) (r : RuleIx) (c : CallRecord) (len : Nat) :
    Keeps s (s.deliverReply b h r c len).1 := by
  unfold State.deliverReply
  split
  · exact (keeps_deliver (by assumption)).trans (keeps_forwarded _)
  · exact (keeps_discarded _).before (keeps_raise s _)

theorem keeps_matchReply (s : State) (p : Port) (b : BufIx) (h : Header) (r : RuleIx) (len : Nat) :
    Keeps s (s.matchReply p b h r len).1 := by
  unfold State.matchReply
  split
  · exact (keeps_discarded _).before (keeps_raise s _)
  · split
    · exact ((keeps_withdrawIfQueued s _).trans (keeps_freeRecord _ _)).trans (keeps_deliverReply _ _ _ _ _ _)
    · exact (keeps_discarded _).before (keeps_raise s _)

theorem keeps_mirrorCopy (s : State) (p : Port) (b : BufIx) (r : RuleIx) (o : Byte) : Keeps s (s.mirrorCopy p b r o) := by
  unfold State.mirrorCopy
  refine Keeps.ite (Keeps.trans ?_ (keeps_modCount _ _)) (Keeps.refl s)
  split
  · rename_i t h
    unfold State.mirrorDelivery at h
    split at h
    · exact absurd h (by simp)
    · split at h
      · exact absurd h (by simp)
      · exact keeps_deliver h
  · exact keeps_raise s _

theorem keeps_applySettled (s : State) (p : Port) (b : BufIx) (h : Header) (x : Settled) :
    Keeps s (s.applySettled p b h x) := by
  cases x with
  | unscanned => exact keeps_discarded s
  | noRule => exact (keeps_discarded _).before (keeps_raise s _)
  | discard r => exact (keeps_mirrorCopy _ _ _ _ _).before (keeps_discarded s)
  | shortReply r => exact (keeps_mirrorCopy _ _ _ _ _).before ((keeps_discarded _).before (keeps_raise s _))
  | refusal r st d g => exact (keeps_refuse s p h st d).trans (keeps_mirrorCopy _ _ _ _ _)
  | matching r len => exact (keeps_matchReply s p b h r len).trans (keeps_mirrorCopy _ _ _ _ _)
  | forward r f =>
    exact Keeps.ite ((keeps_forwardRequest s p b h r f).trans (keeps_mirrorCopy _ _ _ _ _))
      ((keeps_forwardNotice s b h r f).trans (keeps_mirrorCopy _ _ _ _ _))

theorem keeps_decisionStep (s : State) (p : Port) : Keeps s (s.decisionStep p) := by
  unfold State.decisionStep
  split
  · exact Keeps.refl s
  · exact ((keeps_modPort s p _).trans (keeps_applySettled _ _ _ _ _)).trans (keeps_release _ _)

/-! ## Notices and demands -/

theorem keeps_noticeAttempt (s : State) : Keeps s s.noticeAttempt := by
  unfold State.noticeAttempt
  split
  · split
    · exact Keeps.refl s
    · split
      · exact Keeps.refl s
      · rename_i b _ _ t h
        exact (keeps_judge _ _ _).before ((keeps_disarm t).before ((keeps_deliver h).before (keeps_modBuffer s b _)))
  · exact Keeps.refl s

theorem keeps_dropTrigger (s : State) (f : Flag) : Keeps s (s.dropTrigger f) := ⟨rfl, rfl, rfl⟩

theorem keeps_noticeStep (s : State) (f : Flag) : Keeps s (s.noticeStep f) :=
  Keeps.ite (Keeps.ite ((keeps_dropTrigger s f).trans (keeps_noticeAttempt _)) (keeps_dropTrigger s f)) (Keeps.refl s)

theorem keeps_settleTriggers (s : State) : Keeps s s.settleTriggers :=
  (Keeps.foldl keeps_noticeStep s.wires.triggers s).trans ⟨rfl, rfl, rfl⟩

theorem keeps_takeDemand (s : State) (d : Demand) : Keeps s (s.takeDemand d) := by
  cases d with
  | delivered p => exact keeps_takeOldest s _
  | undeliverable p => exact keeps_takeOldest s _
  | targetPortDown p => exact keeps_takeOldest s _
  | portDown p => exact keeps_takeOldest s _
  | withdraw p t => exact keeps_withdrawStep s p t
  | notice f => exact keeps_noticeStep s f

/-! ## The management reply -/

theorem keeps_sendOwed (s : State) (r : Option CallRecord) : Keeps s (s.sendOwed r) := by
  cases r
  · exact Keeps.refl s
  · exact keeps_sendCallReply s _ _

theorem keeps_interleave (s : State) (o : Interleaving) (r : Option CallRecord) : Keeps s (s.interleave o r) :=
  Keeps.ite (Keeps.foldl keeps_takeDemand _ s) ((keeps_sendOwed s r).trans (Keeps.foldl keeps_takeDemand _ _))

theorem keeps_writeReply (s : State) (b : BufIx) (l : List Byte) : Keeps s (s.writeReply b l) :=
  Keeps.ite (Keeps.refl s) (keeps_modBuffer s b _)

theorem keeps_offerManagement (s : State) (q : Request) (e : QueueEntry) : Keeps s (s.offerManagement q e) := by
  unfold State.offerManagement
  split
  · exact keeps_deliver (by assumption)
  · exact Keeps.ite ((keeps_raise s _).trans (keeps_reportRestart _)) (keeps_raise s _)

/-- What the answering of a request adds to the operation's own effects leaves the frame alone. -/
theorem keeps_answer (gsn : Station) (o : Interleaving) (q : Request) (x : Executed) (r : Bool) :
    Keeps x.state (State.answer gsn o q x r) := by
  have h := ((keeps_interleave x.state o x.owed).trans (keeps_writeReply _ q.buffer x.payload)).trans
    (keeps_offerManagement _ q (managementEntry gsn q x.status x.payload r))
  exact (Keeps.trans h (Keeps.ite (keeps_sendOwed _ x.owed) (Keeps.refl _))).trans (keeps_release _ _)

end Sys2Proof.Machine
end

