-- ==== Sys2Proof/Laws/Effects.lean ====
section
/-! SUPPORT. What the raising of a flag, a judgement, the release of a buffer, the freeing of a record and the taking of demands can
do, said once: later proofs cite these and need not unfold them. -/

namespace Sys2Proof.Machine

/-! ## Raising a flag (R163) -/

/-- From s to t flags were set and their notice attempts left to be made, and nothing else changed. -/
structure OnlyFlags (s t : State) : Prop where
  pending : t.pending = s.pending
  resetAsserted : t.resetAsserted = s.resetAsserted
  timeBase : t.timeBase = s.timeBase
  tables : t.tables = s.tables
  ports : t.ports = s.ports
  pool : t.pool = s.pool
  calls : t.calls = s.calls
  mgmt : t.mgmt = s.mgmt
  claims : t.wires.claims = s.wires.claims
  withdraws : t.wires.withdraws = s.wires.withdraws
  armed : t.events.armed = s.events.armed
  capture : t.events.capture = s.events.capture
  counters : t.events.counters = s.events.counters
  flagged : ∀ f, s.flagged f → t.flagged f

namespace OnlyFlags

theorem refl (s : State) : OnlyFlags s s := ⟨rfl, rfl, rfl, rfl, rfl, rfl, rfl, rfl, rfl, rfl, rfl, rfl, rfl, fun _ h => h⟩

theorem trans {s t u : State} (h : OnlyFlags s t) (k : OnlyFlags t u) : OnlyFlags s u where
  pending := k.pending.trans h.pending
  resetAsserted := k.resetAsserted.trans h.resetAsserted
  timeBase := k.timeBase.trans h.timeBase
  tables := k.tables.trans h.tables
  ports := k.ports.trans h.ports
  pool := k.pool.trans h.pool
  calls := k.calls.trans h.calls
  mgmt := k.mgmt.trans h.mgmt
  claims := k.claims.trans h.claims
  withdraws := k.withdraws.trans h.withdraws
  armed := k.armed.trans h.armed
  capture := k.capture.trans h.capture
  counters := k.counters.trans h.counters
  flagged := fun f x => k.flagged f (h.flagged f x)

theorem port {s t : State} (h : OnlyFlags s t) (p : Port) : t.port p = s.port p := by simp [State.port, h.ports]
theorem queue {s t : State} (h : OnlyFlags s t) (p : Port) (q : QueueId) : t.queue p q = s.queue p q := by
  simp [State.queue, h.port]
theorem buffer {s t : State} (h : OnlyFlags s t) (b : BufIx) : t.buffer b = s.buffer b := by simp [State.buffer, h.pool]
theorem record {s t : State} (h : OnlyFlags s t) (i : CallIx) : t.record i = s.record i := by simp [State.record, h.calls]
theorem freeCount {s t : State} (h : OnlyFlags s t) : t.freeCount = s.freeCount := by simp [State.freeCount, h.pool]
theorem occupancy {s t : State} (h : OnlyFlags s t) (p : Port) : t.occupancy p = s.occupancy p := by
  simp [State.occupancy, h.pool]

/-- A level condition is judged from its source, so a flag changes none. -/
theorem levelHolds {s t : State} (h : OnlyFlags s t) (l : Level) : t.levelHolds l = s.levelHolds l := by
  cases l with
  | poolLow =>
    refine decide_eq_decide.mpr ?_
    simp only [h.freeCount, State.settings, h.tables]
  | callsHigh =>
    refine decide_eq_decide.mpr ?_
    simp only [State.recordsInUse, h.calls, State.settings, h.tables]
  | linkUp p => simp only [State.levelHolds, h.port]
  | warn p => simp only [State.levelHolds, h.port]
  | isolated p => simp only [State.levelHolds, h.port]
  | holding p => simp only [State.levelHolds, h.port]

end OnlyFlags

theorem flagBit_lt (f : Flag) : flagBit f < 64 := by
  cases f with
  | event e => cases e <;> decide
  | rise l => cases l <;> simp [flagBit, levelBit] <;> omega
  | fall l => cases l <;> simp [flagBit, levelBit] <;> omega

theorem flagSet_setFlag (s : State) (f g : Flag) :
    (s.setFlag f).flagSet g = (s.flagSet g || decide (flagBit g = flagBit f)) := by
  have h := flagBit_lt g
  simp only [State.flagSet, State.setFlag, flagMask, BitVec.getLsbD_or, BitVec.getLsbD_shiftLeft]
  congr 1
  by_cases e : flagBit g = flagBit f
  · simp [e, flagBit_lt f]
  · have : (1#64).getLsbD (flagBit g - flagBit f) = true → flagBit g - flagBit f = 0 := by
      intro hx
      by_contra hne
      simp [BitVec.getLsbD_one, hne] at hx
    rcases Nat.lt_or_ge (flagBit g) (flagBit f) with hl | hl
    · simp [hl, e]
    · have hne : flagBit g - flagBit f ≠ 0 := by omega
      simp [e, BitVec.getLsbD_one, hne]

theorem onlyFlags_setFlag (s : State) (f : Flag) : OnlyFlags s (s.setFlag f) :=
  ⟨rfl, rfl, rfl, rfl, rfl, rfl, rfl, rfl, rfl, rfl, rfl, rfl, rfl,
    fun g h => (flagSet_setFlag s f g).trans (by rw [show s.flagSet g = true from h]; rfl)⟩

/-- The event set after a flag is raised, whether or not its notice attempt is still to be made (R163). -/
theorem events_raise (s : State) (f : Flag) : (s.raise f).events = (s.setFlag f).events := by
  unfold State.raise
  split <;> rfl

/-- The notice attempts still to be made after a flag is raised (R167). -/
theorem triggers_raise (s : State) (f : Flag) : (s.raise f).wires.triggers
    = s.wires.triggers ++ (if s.flagEnabled f && !s.flagSet f then [f] else []) := by
  unfold State.raise
  split
  · rfl
  · exact (List.append_nil _).symm

theorem flagSet_raise (s : State) (f g : Flag) : (s.raise f).flagSet g = (s.flagSet g || decide (flagBit g = flagBit f)) := by
  rw [State.flagSet, events_raise]
  exact flagSet_setFlag s f g

/-- Everything the raising of a flag does: nothing but flags change. -/
theorem onlyFlags_raise (s : State) (f : Flag) : OnlyFlags s (s.raise f) := by
  have h := onlyFlags_setFlag s f
  unfold State.raise
  split
  · exact ⟨rfl, rfl, rfl, rfl, rfl, rfl, rfl, rfl, rfl, rfl, rfl, rfl, rfl, h.flagged⟩
  · exact h

/-- A raised flag is set. -/
theorem flagged_raise (s : State) (f : Flag) : (s.raise f).flagged f := by
  rw [State.flagged, flagSet_raise]
  simp

/-! ## Judgements (R164) -/

/-- Everything a judgement does: nothing but flags change. -/
theorem onlyFlags_judge (s : State) (l : Level) (was : Bool) : OnlyFlags s (s.judge l was) := by
  unfold State.judge
  split
  · exact OnlyFlags.refl s
  · split
    · exact onlyFlags_raise s _
    · exact onlyFlags_raise s _

/-- A judgement that finds no change does nothing. -/
theorem judge_same {s : State} {l : Level} {was : Bool} (h : s.levelHolds l = was) : s.judge l was = s := by
  simp [State.judge, h]

/-- A judgement that finds the condition risen raises its RISE flag. -/
theorem flagged_judge_rise {s : State} {l : Level} (h : s.levelHolds l = true) : (s.judge l false).flagged (.rise l) := by
  simpa [State.judge, h] using flagged_raise s (.rise l)

/-- A judgement that finds the condition fallen raises its FALL flag. -/
theorem flagged_judge_fall {s : State} {l : Level} (h : s.levelHolds l = false) : (s.judge l true).flagged (.fall l) := by
  simpa [State.judge, h] using flagged_raise s (.fall l)

/-- R179: no two flags share a bit of the event set. -/
theorem flagBit_inj {f g : Flag} : flagBit f = flagBit g ↔ f = g := by
  refine ⟨fun h => ?_, fun h => h ▸ rfl⟩
  cases f with
  | event e =>
    cases g with
    | event e' => cases e <;> cases e' <;> first | rfl | (simp [flagBit, eventBit] at h)
    | rise l => cases e <;> cases l <;> simp [flagBit, eventBit, levelBit] at h <;> omega
    | fall l => cases e <;> cases l <;> simp [flagBit, eventBit, levelBit] at h <;> omega
  | rise l =>
    cases g with
    | event e => cases e <;> cases l <;> simp [flagBit, eventBit, levelBit] at h <;> omega
    | rise l' => cases l <;> cases l' <;> simp [flagBit, levelBit, Fin.ext_iff] at h ⊢ <;> omega
    | fall l' => cases l <;> cases l' <;> simp [flagBit, levelBit] at h ⊢ <;> omega
  | fall l =>
    cases g with
    | event e => cases e <;> cases l <;> simp [flagBit, eventBit, levelBit] at h <;> omega
    | rise l' => cases l <;> cases l' <;> simp [flagBit, levelBit] at h ⊢ <;> omega
    | fall l' => cases l <;> cases l' <;> simp [flagBit, levelBit, Fin.ext_iff] at h ⊢ <;> omega

/-! ## The flags an act sets, told as FlagsBecome -/

theorem flagsBecome_refl (s : State) : FlagsBecome s s (fun _ => False) := fun _ => by simp

theorem flagsBecome_trans {s t u : State} {m n : Flag → Prop} (h : FlagsBecome s t m) (k : FlagsBecome t u n) :
    FlagsBecome s u (fun f => m f ∨ n f) := fun f => by rw [k f, h f, or_assoc]

theorem flagsBecome_congr {s t : State} {m n : Flag → Prop} (h : FlagsBecome s t m) (e : ∀ f, m f ↔ n f) : FlagsBecome s t n :=
  fun f => by rw [h f, e f]

theorem flagsBecome_ofEvents {s t : State} (h : t.events = s.events) : FlagsBecome s t (fun _ => False) := fun f => by
  simp [State.flagSet, h]

/-- The raising of a flag sets it and no other. -/
theorem flagsBecome_raise (s : State) (f : Flag) : FlagsBecome s (s.raise f) (· = f) := fun g => by
  rw [flagSet_raise]
  simp [flagBit_inj]

/-- A judgement sets the RISE flag where the condition has risen, the FALL flag where it has fallen, and no other. -/
theorem flagsBecome_judge (s : State) (l : Level) (was : Bool) : FlagsBecome s (s.judge l was)
    (fun f => (f = .rise l ∧ was = false ∧ s.levelHolds l = true) ∨ (f = .fall l ∧ was = true ∧ s.levelHolds l = false)) := by
  unfold State.judge
  cases was with
  | false =>
    cases h : s.levelHolds l with
    | false => exact flagsBecome_congr (flagsBecome_refl s) (by simp)
    | true => exact flagsBecome_congr (flagsBecome_raise s _) (by simp)
  | true =>
    cases h : s.levelHolds l with
    | false => exact flagsBecome_congr (flagsBecome_raise s _) (by simp)
    | true => exact flagsBecome_congr (flagsBecome_refl s) (by simp)

/-! ## Notice triggers and the due restart act -/

/-- Where no trigger waits, READ EVENTS has none to settle first. -/
theorem settleTriggers_of_nil {s : State} (h : s.wires.triggers = []) : s.settleTriggers = s := by
  rw [State.settleTriggers, h]
  show { s with wires := { s.wires with triggers := [] } } = s
  rw [← h]

theorem noticeStep_of_notMem {s : State} {f : Flag} (h : f ∉ s.wires.triggers) : s.noticeStep f = s := by
  simp [State.noticeStep, h]

/-- A trigger is taken with its attempt where its flag is still enabled. -/
theorem noticeStep_of_enabled {s : State} {f : Flag} (h : f ∈ s.wires.triggers) (e : s.flagEnabled f = true) :
    s.noticeStep f = (s.dropTrigger f).noticeAttempt := by
  simp [State.noticeStep, h, e]

/-- A trigger whose flag is no longer enabled is dropped without an attempt. -/
theorem noticeStep_of_dropped {s : State} {f : Flag} (h : f ∈ s.wires.triggers) (e : s.flagEnabled f = false) :
    s.noticeStep f = s.dropTrigger f := by
  simp [State.noticeStep, h, e]

/-- Where a write raises no trigger, none is taken in its act. -/
theorem takeNewTriggers_of_same {before s : State} (h : s.wires.triggers = before.wires.triggers) : takeNewTriggers before s = s := by
  simp [takeNewTriggers, h]

theorem restartDue_iff (s : State) : s.restartDue = true ↔ s.awaitsRestartAct := by
  unfold State.restartDue State.awaitsRestartAct
  cases s.mgmt.restart <;> simp

theorem onlyFlags_judgePort (s : State) (p : Port) (before : State) : OnlyFlags s (s.judgePort p before) :=
  (((onlyFlags_judge s _ _).trans (onlyFlags_judge _ _ _)).trans (onlyFlags_judge _ _ _)).trans (onlyFlags_judge _ _ _)

/-! ## Own HOLD and the release of a buffer (R94, R103 to R106) -/

/-- What a port keeps when it may have been judged for own HOLDING: everything but HOLDING and control symbols added behind. -/
def SameButHold (x y : PortSt) : Prop :=
  y = { x with control := y.control, ownHold := y.ownHold } ∧ x.control <+: y.control

namespace SameButHold

theorem refl (x : PortSt) : SameButHold x x := ⟨rfl, List.prefix_refl _⟩

theorem trans {x y z : PortSt} (h : SameButHold x y) (k : SameButHold y z) : SameButHold x z := by
  refine ⟨?_, h.2.trans k.2⟩
  have e := k.1
  rw [h.1] at e
  exact e

theorem queue {x y : PortSt} (h : SameButHold x y) (q : QueueId) : y.queue q = x.queue q := by
  rw [h.1]
  cases q <;> rfl

end SameButHold

/-- From s to t ports may have been judged for own HOLDING and flags set; nothing else changed but the pool. -/
structure OnlyHolding (s t : State) : Prop where
  pending : t.pending = s.pending
  resetAsserted : t.resetAsserted = s.resetAsserted
  timeBase : t.timeBase = s.timeBase
  tables : t.tables = s.tables
  ports : ∀ p, SameButHold (s.port p) (t.port p)
  calls : t.calls = s.calls
  mgmt : t.mgmt = s.mgmt
  claims : t.wires.claims = s.wires.claims
  withdraws : t.wires.withdraws = s.wires.withdraws
  armed : t.events.armed = s.events.armed
  capture : t.events.capture = s.events.capture
  counters : t.events.counters = s.events.counters
  flagged : ∀ f, s.flagged f → t.flagged f

namespace OnlyHolding

theorem ofFlags {s t : State} (h : OnlyFlags s t) : OnlyHolding s t :=
  ⟨h.pending, h.resetAsserted, h.timeBase, h.tables, fun p => by rw [h.port p]; exact SameButHold.refl _, h.calls, h.mgmt,
    h.claims, h.withdraws, h.armed, h.capture, h.counters, h.flagged⟩

theorem refl (s : State) : OnlyHolding s s := ofFlags (OnlyFlags.refl s)

theorem trans {s t u : State} (h : OnlyHolding s t) (k : OnlyHolding t u) : OnlyHolding s u where
  pending := k.pending.trans h.pending
  resetAsserted := k.resetAsserted.trans h.resetAsserted
  timeBase := k.timeBase.trans h.timeBase
  tables := k.tables.trans h.tables
  ports := fun p => (h.ports p).trans (k.ports p)
  calls := k.calls.trans h.calls
  mgmt := k.mgmt.trans h.mgmt
  claims := k.claims.trans h.claims
  withdraws := k.withdraws.trans h.withdraws
  armed := k.armed.trans h.armed
  capture := k.capture.trans h.capture
  counters := k.counters.trans h.counters
  flagged := fun f x => k.flagged f (h.flagged f x)

theorem queue {s t : State} (h : OnlyHolding s t) (p : Port) (q : QueueId) : t.queue p q = s.queue p q :=
  (h.ports p).queue q

/-- A change of the pool alone. -/
theorem ofPool (s : State) (v : Vector Buffer 256) : OnlyHolding s { s with pool := v } :=
  ⟨rfl, rfl, rfl, rfl, fun p => SameButHold.refl (s.port p), rfl, rfl, rfl, rfl, rfl, rfl, rfl, fun _ h => h⟩

end OnlyHolding

theorem onlyHolding_modPort (s : State) (p : Port) (f : PortSt → PortSt) (h : SameButHold (s.port p) (f (s.port p))) :
    OnlyHolding s (s.modPort p f) := by
  refine ⟨rfl, rfl, rfl, rfl, ?_, rfl, rfl, rfl, rfl, rfl, rfl, rfl, fun _ h => h⟩
  intro q
  rw [State.port_modPort]
  split
  · subst q
    exact h
  · exact SameButHold.refl _

theorem onlyHolding_pushControl (s : State) (p : Port) (c : Control) : OnlyHolding s (s.pushControl p c) :=
  onlyHolding_modPort s p _ ⟨rfl, List.prefix_append _ _⟩

theorem onlyHolding_startHold (s : State) (p : Port) : OnlyHolding s (s.startHold p) :=
  ((onlyHolding_pushControl s p _).trans (onlyHolding_modPort _ p _ ⟨rfl, List.prefix_refl _⟩)).trans
    (.ofFlags (onlyFlags_judge _ _ _))

theorem onlyHolding_endHold (s : State) (p : Port) : OnlyHolding s (s.endHold p) :=
  ((onlyHolding_pushControl s p _).trans (onlyHolding_modPort _ p _ ⟨rfl, List.prefix_refl _⟩)).trans
    (.ofFlags (onlyFlags_judge _ _ _))

/-- Everything the judgement of own HOLDING does. -/
theorem onlyHolding_judgeHold (s : State) (p : Port) : OnlyHolding s (s.judgeHold p) := by
  unfold State.judgeHold
  split
  · split
    · split
      · exact onlyHolding_startHold s p
      · exact OnlyHolding.refl s
    · split
      · exact onlyHolding_endHold s p
      · exact OnlyHolding.refl s
  · exact OnlyHolding.refl s

/-- Everything a judgement of own HOLDING says of a port in service (R103, R105). -/
theorem holdJudged_judgeHold {s : State} {p : Port} (h : (s.port p).state.inService = true) :
    HoldJudged s (s.judgeHold p) p (s.port p).control (s.occupancy p) := by
  have started : ((s.startHold p).port p).ownHold = some ((s.portRec p).holdTime.toNat * 25)
      ∧ ((s.startHold p).port p).control = (s.port p).control ++ [.hold (s.portRec p).holdTime] := by
    rw [State.startHold, (onlyFlags_judge _ _ _).port]
    simp [State.pushControl, State.port, State.modPort]
  have ended : ((s.endHold p).port p).ownHold = none
      ∧ ((s.endHold p).port p).control = (s.port p).control ++ [.hold 0] := by
    rw [State.endHold, (onlyFlags_judge _ _ _).port]
    simp [State.pushControl, State.port, State.modPort]
  unfold HoldJudged State.holdBegins State.holdEnds State.judgeHold
  rw [if_pos h]
  cases k : (s.port p).ownHold with
  | none =>
    refine ⟨fun b => ?_, fun e => absurd rfl e.1, fun b _ => ?_⟩
    · rw [if_pos b.2]
      refine ⟨started.1, started.2, ?_⟩
      rw [State.startHold, show s.levelHolds (.holding p) = false by simp [State.levelHolds, k]]
      exact flagged_judge_rise (by simp [State.levelHolds, State.port, State.modPort])
    · rw [if_neg (fun c => b ⟨rfl, c⟩)]
      exact ⟨k, rfl⟩
  | some left =>
    refine ⟨fun b => (nomatch b.1), fun e => ?_, fun _ e => ?_⟩
    · rw [if_pos e.2]
      refine ⟨ended.1, ended.2, ?_⟩
      rw [State.endHold, show s.levelHolds (.holding p) = true by simp [State.levelHolds, k]]
      exact flagged_judge_fall (by simp [State.levelHolds, State.port, State.modPort])
    · rw [if_neg (fun c => e ⟨by simp, c⟩)]
      exact ⟨k, rfl⟩

theorem pool_judgeHold (s : State) (p : Port) : (s.judgeHold p).pool = s.pool := by
  unfold State.judgeHold
  split
  · split
    · split
      · exact (onlyFlags_judge _ _ _).pool
      · rfl
    · split
      · exact (onlyFlags_judge _ _ _).pool
      · rfl
  · rfl

theorem onlyHolding_changeBuffer (s : State) (b : BufIx) (f : Buffer → Buffer) : OnlyHolding s (s.changeBuffer b f) :=
  (OnlyHolding.ofPool s _).trans (.ofFlags (onlyFlags_judge (s.modBuffer b f) _ _))

/-- Everything a release does besides the hold count: it may end or begin own HOLDING of the origin port and set flags. -/
theorem onlyHolding_release (s : State) (b : BufIx) : OnlyHolding s (s.release b) := by
  unfold State.release
  split
  · exact OnlyHolding.refl s
  · split
    · split
      · exact (onlyHolding_changeBuffer s b _).trans (onlyHolding_judgeHold _ _)
      · exact onlyHolding_changeBuffer s b _
    · exact OnlyHolding.ofPool s _

/-- A release lowers the hold count of its buffer by 1, not below 0, and leaves every other buffer (R94). -/
theorem pool_release (s : State) (b : BufIx) :
    (s.release b).pool = put s.pool b { s.buffer b with holds := (s.buffer b).holds - 1 } := by
  have e0 : ∀ x : Buffer, x.holds = 0 → ({ x with holds := x.holds - 1 } : Buffer) = x := by
    rintro ⟨n, o, i, l, a⟩ h
    simp_all
  have e1 : ∀ x : Buffer, x.holds = 1 → ({ x with holds := 0 } : Buffer) = { x with holds := x.holds - 1 } := by
    rintro ⟨n, o, i, l, a⟩ h
    simp_all
  unfold State.release
  split
  case isTrue h => rw [e0 _ h, State.buffer, put_look]
  case isFalse h =>
    split
    case isTrue h1 =>
      rw [← e1 _ h1]
      split
      · rw [pool_judgeHold, State.changeBuffer, (onlyFlags_judge _ _ _).pool]
        rfl
      · rw [State.changeBuffer, (onlyFlags_judge _ _ _).pool]
        rfl
    case isFalse h1 => rfl

theorem buffer_release (s : State) (b c : BufIx) :
    (s.release b).buffer c = if b = c then { s.buffer b with holds := (s.buffer b).holds - 1 } else s.buffer c := by
  rw [State.buffer, pool_release, look_put]
  rfl

/-- What leaves with an entry of a queue besides the queue itself (R74, R83). -/
theorem queue_entryLeft (s : State) (e : QueueEntry) (p : Port) (q : QueueId) : (s.entryLeft e).queue p q = s.queue p q := by
  have hr : s.reportRestart.queue p q = s.queue p q := by
    unfold State.reportRestart
    split <;> rfl
  have ho : ∀ t : State, (t.releaseOpt e.buffer).queue p q = t.queue p q := by
    intro t
    cases e.buffer with
    | none => rfl
    | some b => exact (onlyHolding_release t b).queue p q
  unfold State.entryLeft
  rw [ho]
  split
  · exact hr
  · rfl

/-! ## The call table (R51, R52) -/

/-- A record that is freed leaves its own place and joins the end of the free list; no port and no buffer changes. -/
theorem freeRecord_of_inUse {s : State} {i : CallIx} (h : (s.record i).inUse = true) :
    (s.freeRecord i).record i = freedRecord (s.record i) ∧ (∀ j, j ≠ i → (s.freeRecord i).record j = s.record j)
      ∧ (s.freeRecord i).calls.freeList = s.calls.freeList ++ [i] ∧ (s.freeRecord i).ports = s.ports
      ∧ (s.freeRecord i).pool = s.pool ∧ (s.freeRecord i).mgmt = s.mgmt := by
  unfold State.freeRecord
  rw [if_pos h]
  simp only [State.record, (onlyFlags_judge _ _ _).calls, (onlyFlags_judge _ _ _).ports, (onlyFlags_judge _ _ _).pool,
    (onlyFlags_judge _ _ _).mgmt]
  refine ⟨?_, ?_, rfl, rfl, rfl, rfl⟩
  · simp [State.setRecord, freedRecord]
  · intro j hj
    simp [State.setRecord, Ne.symm hj]

/-- A call reply joins G of the requester's port, or GW_REPLY_LOST is set (R67). -/
theorem callReplySent_sendCallReply (s : State) (r : CallRecord) (st : Status) : callReplySent s (s.sendCallReply r st) r st := by
  unfold State.sendCallReply State.offerReply
  constructor
  · intro h
    split
    case h_1 t ht =>
      obtain ⟨_, rfl⟩ := deliver_eq_some.mp ht
      simp only [State.queue, newEntry, State.holdOpt, State.setQueue, State.port_modPort, if_true, queue_setQueue_self]
      rfl
    case h_2 hn => simp [deliver_eq_none, h] at hn
  · intro h
    split
    case h_1 t ht =>
      obtain ⟨hc, _⟩ := deliver_eq_some.mp ht
      simp [h] at hc
    case h_2 hn => exact ⟨(onlyFlags_raise s _).queue _ _, flagged_raise s _⟩

/-! ## Demands that are taken one after the other (R148) -/

/-- A demand is taken during a take as its own command takes it. -/
theorem exec_demandRow {s : State} (h : s.resetAsserted = false) (d : Demand) : exec (demandRow d) s = .next (s.takeDemand d) := by
  cases d <;> exact if_neg (by simp [h])

theorem runsDemands_foldl (ds : List Demand) {s : State} (h : s.resetAsserted = false) :
    RunsDemands ds s (ds.foldl State.takeDemand s) := by
  induction ds generalizing s with
  | nil => rfl
  | cons d ds ih => exact ⟨s.takeDemand d, exec_demandRow h d, ih ((keeps_takeDemand s d).resetAsserted.trans h)⟩

/-- Triggers that are taken one after the other are taken by their commands. -/
theorem runsDemands_notices (fs : List Flag) {s : State} (h : s.resetAsserted = false) :
    RunsDemands (fs.map Demand.notice) s (fs.foldl State.noticeStep s) := by
  have := runsDemands_foldl (fs.map Demand.notice) h
  rwa [List.foldl_map] at this

end Sys2Proof.Machine
end

