-- ==== Sys2Proof/Tests/Slice0.lean ====
section
/-! SUPPORT. The model's own tests: ill-formed commands, the encoded formats, one small step per command, and for every statement
with hypotheses states and operands that meet them. -/

namespace Sys2Proof.Tests

set_option Elab.async false

open Sys2Proof Sys2Proof.Machine

/-! ## Helpers -/

/-- The state after a command; a command that gave none would be seen by the values asked of it. -/
def after (c : Instr) (s : State) : State :=
  match exec c s with
  | .next t => t
  | .fault _ => { s with pending := [.resetAssert] }
  | .refused _ => { s with pending := [.resetAssert] }

/-- A port in a state with its link UP. -/
def portIn (st : PortState) : PortSt :=
  { PortSt.reset false .none with state := st, linkUp := true, watch := some 1, sending := .idleMark }

/-- All four ports in one state. -/
def online (st : PortState) : State := { State.reset with ports := Vector.replicate 4 (portIn st) }

def withPort (s : State) (p : Port) (f : PortSt → PortSt) : State := s.modPort p f

/-- A rule that forwards everything on D2. -/
def openRule : RuleEntry :=
  { RuleEntry.reset with valid := true, kinds := ⟨true, true, true, true⟩, maxRing := 3, verdict := .forward, cmdCap := true,
                         noticeCap := true, qclass := 2 }

/-- Services 0 to 255 of station 17, on port 1. -/
def openService : ServiceEntry :=
  { ServiceEntry.reset with valid := true, station := 17, svcHi := 255, ring := 1, present := true, cmdOk := true,
                            noticeOk := true, port := 1, limit := 48, timeout := 200 }

/-- A gate at station 18, services 5 to 6, that leads to service 40 of station 17. -/
def openGate : ServiceEntry :=
  { openService with station := 18, svcLo := 5, svcHi := 6, kind := .gate, target := 0, entrySvc := 40, words := 2 }

/-- The gateway in FORWARD with one rule for port 0, the service at entry 0 and the gate at entry 1. -/
def serving (r : RuleEntry) (e : ServiceEntry) : State :=
  { online .forward with
    tables :=
      { (online .forward).tables with
        rules := put (Vector.replicate 256 RuleEntry.reset) 7 r
        services := put (put (Vector.replicate 128 ServiceEntry.reset) 0 e) 1 openGate
        portRecs := Vector.replicate 4 { PortRec.reset false with portRing := 0, ruleStart := 7, ruleCount := 1 } } }

/-- A header from station 9. -/
def hdr (k : Kind) (dst : Station) (svc : Svc) (len : Byte) (tag : Tag) : Header := ⟨k, 1, 3, dst, 9, svc, len, tag, 77, 0⟩

/-- A frame held in buffer 5 that awaits decision on port 0. -/
def arrived (s : State) (h : Header) (payload : List Byte) : State :=
  (s.modBuffer 5 (fun _ => ⟨1, .port 0, h.encode, payload, 3⟩)).modPort 0 (fun x => { x with awaiting := [5] })

/-- A management request in buffer 5 at the head of the input queue. -/
def asked (s : State) (k : Kind) (svc : Svc) (payload : List Byte) : State :=
  { s.modBuffer 5 (fun _ => ⟨1, .port 0, (⟨k, 0, 0, 240, 9, svc, natByte payload.length, 50, 0, 0⟩ : Header).encode, payload, 3⟩)
      with mgmt := ⟨[⟨0, 5⟩], .clear⟩ }

/-- The bring-up port with its link UP. -/
def ready : State := State.reset.modPort 0 (fun x => { x with linkUp := true })

/-- Nothing interleaved. -/
def plain : Interleaving := ⟨false, []⟩

/-- A queue entry of a request under tag 3. -/
def waiting : QueueEntry := newEntry .forwarded (hdr .query 17 40 0 3) none (some 3) false none

/-- An attempt on the head of D2 whose ack window has 7 µs left. -/
def trying (e : QueueEntry) : State :=
  (online .forward).modPort 0 (fun x =>
    { x with data := put x.data 2 [{ e with inTransmission := true }], attempt := some ⟨.data 2, [], .window 7⟩ })

/-- Record 3 open for a call from station 9 on port 0 to service 40 of station 17 on port 1. -/
def openCall (st : CallState) : CallRecord :=
  { CallRecord.reset with state := st, reqPort := 0, reqStation := 9, reqTag := 50, addrStation := 17, addrSvc := 40, tgtPort := 1,
                          tgtStation := 17, tgtSvc := 40, carriedRing := 3, deadline := 1000 }

def inCall (s : State) (st : CallState) : State :=
  { s.setRecord 3 (openCall st) with calls := ⟨put s.calls.records 3 (openCall st), s.calls.freeList.filter (· != 3)⟩ }

def claiming (s : State) (c : Claim) : State := s.addClaim c

/-! ## Ill-formed commands -/

theorem test_wellFormed_brokenFrame_data : (Instr.brokenFrame 0 (.character (.data 5))).wellFormed = false := by decide
theorem test_wellFormed_brokenFrame_end : (Instr.brokenFrame 0 (.character .endChar)).wellFormed = false := by decide
theorem test_wellFormed_withdraw : (Instr.withdraw 0 128).wellFormed = false := by decide
theorem test_wellFormed_between : (Instr.managementTake ⟨false, [.withdraw 1 255]⟩).wellFormed = false := by decide
theorem test_wellFormed_operation : (Instr.probe ⟨false, [.withdraw 1 200]⟩).wellFormed = false := by decide
theorem test_wellFormed_accepts :
    ((Instr.brokenFrame 0 (.character .start)).wellFormed && (Instr.withdraw 0 0xFF7F).wellFormed) = true := by decide

/-! ## Encoded formats -/

/-- R110: the check word of the nine characters 1 to 9. -/
theorem test_checkWord : checkWord [49, 50, 51, 52, 53, 54, 55, 56, 57] = 10673 := by decide +kernel

/-- R178: a COMMAND of RING 2 and URGENCY 5, byte by byte. -/
theorem test_header_bytes : (⟨.command, 2, 5, 17, 200, 1000, 6, 50, 513, 0⟩ : Header).encode
    = [0b01101010, 17, 200, 3, 232, 6, 0, 50, 2, 1, 0] := by decide

theorem test_header_ignores_unused_bits : Header.decode [0b01101011, 17, 200, 0xF3, 232, 6, 0, 50, 2, 1, 0]
    = ⟨.command, 2, 5, 17, 200, 1000, 6, 50, 513, 0⟩ := by decide

/-- R180: the reset image of a rule entry. -/
theorem test_rule_image : RuleEntry.reset.image = [0, 0, 0, 0, 0, 0, 0, 0, 0, 0, 0, 1, 0, 255, 0, 0, 0, 255, 1, 0, 0, 0, 0] := by decide

theorem test_service_image : openService.image = [1, 17, 0, 0, 0, 255, 0, 1, 1, 1, 48, 0, 200, 0, 0, 0, 0, 1, 1] := by decide

theorem test_port_image : (PortRec.reset true).image = [0, 1, 0, 0, 0, 64, 48, 24, 20, 20, 3, 0, 0] := by decide

theorem test_settings_image : (Settings.reset 240 0).image
    = [240, 0, 4, 1, 0, 255, 0, 0, 0, 0, 0, 0, 0, 0, 0, 0, 0, 255, 255, 0, 0, 16, 32, 112] := by decide

theorem test_rule_without_kinds_refused : RuleEntry.ofImage (1 :: RuleEntry.reset.image.tail) = none := by decide

/-! ## The block's own words -/

theorem test_no_word_is_a_command : decodeTableWord 32 0 = none := by decide
theorem test_reset_pool : State.reset.freeCount = 256 := by decide +kernel
theorem test_empty_queue : ∃ t, step State.reset = .next t ∧ t.timeBase = 1 := ⟨_, rfl, by decide +kernel⟩

/-! ## One step per command -/

theorem test_resetAssert : (after .resetAssert ready).resetAsserted = true := by decide +kernel
theorem test_resetRelease : (after (.resetRelease 1 5) ready).settings.gsn = 245
    ∧ ((after (.resetRelease 1 5) ready).port 1).state = .listen ∧ ((after (.resetRelease 1 5) ready).port 0).state = .disabled := by
  decide +kernel
theorem test_frameReceived : (after (.frameReceived 0 (frameBytes (hdr .query 240 1 0 50) [])) ready).mgmt.queue = [⟨0, 0⟩] := by
  decide +kernel
theorem test_frameReceived_bad : ((after (.frameReceived 0 [1, 2, 3]) ready).port 0).score = 4 := by decide +kernel
theorem test_brokenFrame : ((after (.brokenFrame 0 .unrecognised) ready).port 0).control = [.answer (.nak .check)] := by decide +kernel
theorem test_ackReceived : (after (.ackReceived 0) (trying waiting)).wires.claims = [.delivered 0 3] := by decide +kernel
theorem test_nakReceived : ((after (.nakReceived 0 .check) (trying waiting)).port 0).score = 8 := by decide +kernel
theorem test_nakReceived_keeps : (after (.nakReceived 0 .busy) (trying waiting)).queue 0 (.data 2)
    = [{ waiting with attempts := 1 }] := by decide +kernel
theorem test_ackWindowExpiry : (after (.ackWindowExpiry 0) (trying { waiting with oneShot := true })).wires.claims
    = [.undeliverable 0 3 false] := by decide +kernel
theorem test_strayAnswer : ((after (.strayAnswer 0 .ack) ready).port 0).counters = PortCounters.reset := by decide +kernel
theorem test_holdReceived : ((after (.holdReceived 0 20) ready).port 0).partnerHold = some 1000 := by decide +kernel
theorem test_partnerHoldExpiry : ((after (.partnerHoldExpiry 0) (after (.holdReceived 0 20) ready)).port 0).partnerHold = none
    ∧ (after (.partnerHoldExpiry 0) (after (.holdReceived 0 20) ready)).timeBase = 1000 := by decide +kernel
theorem test_idleRun : ((after (.idleRun 0) State.reset).port 0).linkUp = true
    ∧ (after (.idleRun 0) State.reset).flagSet (.rise (.linkUp 0)) = true := by decide +kernel
theorem test_lossOfSignal : ((after (.lossOfSignal 0) ready).port 0).linkUp = false := by decide +kernel
theorem test_unrecognisedCharacter :
    ((after (.unrecognisedCharacter 0) (ready.modPort 0 (fun x => { x with idleCount := 9 }))).port 0).idleCount = 0 := by decide +kernel
theorem test_transmitterSymbolEnd :
    ((after (.transmitterSymbolEnd 0) (ready.pushControl 0 (.hold 0))).port 0).sending = .control (.hold 0) := by decide +kernel
theorem test_transmitterSymbolEnd_restart_due :
    ((after (.transmitterSymbolEnd 0) { ready.modPort 0 (fun x => { x with attempt := some ⟨.g, [9], .waiting⟩ }) with
      mgmt := ⟨[], .reported 2⟩ }).port 0).sending = .idleMark := by decide +kernel
theorem test_attemptStart : (after (.attemptStart 0) (ready.modPort 0 (fun x => { x with gq := [waiting] }))).queue 0 .g
    = [{ waiting with inTransmission := true }] := by decide +kernel
theorem test_frameSent : ((after (.frameSent 0) (ready.modPort 0 (fun x => { x with attempt := some ⟨.g, [], .waiting⟩ }))).port 0).attempt
    = some ⟨.g, [], .window 20⟩ := by decide +kernel
theorem test_intervalTimerExpiry :
    (look ((after (.intervalTimerExpiry 0 1) (ready.modPort 0 (fun x => { x with intervals := put x.intervals 1 (some 9) }))).port 0).intervals 1)
      = none := by decide +kernel
theorem test_holdResendExpiry :
    ((after (.holdResendExpiry 0) (ready.modPort 0 (fun x => { x with ownHold := some 4 }))).port 0).ownHold = some 500 := by decide +kernel
theorem test_decision : ((after (.decision 0) (arrived (serving openRule openService) (hdr .query 17 40 2 50) [1, 2])).record 0).deadline
    = 200000 := by decide +kernel
theorem test_decision_gate :
    ((after (.decision 0) (arrived (serving openRule openService) (hdr .query 18 5 2 50) [1, 2])).record 0).tgtStation = 17 := by
  decide +kernel
theorem test_deliveredClaim : ((after (.deliveredClaim 1) (claiming (inCall ready .queued) (.delivered 1 3))).record 3).state = .waiting := by
  decide +kernel
theorem test_undeliverableClaim :
    ((after (.undeliverableClaim 1) (claiming (inCall ready .queued) (.undeliverable 1 3 false))).queue 0 .g).length = 1 := by decide +kernel
theorem test_targetPortDownClaim :
    (after (.targetPortDownClaim 1) (claiming (inCall ready .queued) (.targetPortDown 1 3))).calls.freeList.getLast? = some 3 := by
  decide +kernel
theorem test_portDownClaim : (after (.portDownClaim 0) (claiming (inCall ready .queued) (.portDown 0))).wires.withdraws = [(1, 3)] := by
  decide +kernel
theorem test_callExpiry : (after (.callExpiry 3) (inCall ready .waiting)).timeBase = 1000
    ∧ ((after (.callExpiry 3) (inCall ready .waiting)).queue 0 .g).length = 1 := by decide +kernel
theorem test_withdraw :
    (after (.withdraw 0 3) ((ready.addWithdraw 0 3).setQueue 0 (.data 2) [waiting])).queue 0 (.data 2) = [] := by decide +kernel
/-- The gateway with every flag enabled and station 12 as report station, and SHORT set with its notice attempt still to be made. -/
def reporting : State :=
  { ready.setFlag (.event .short) with
    tables := { ready.tables with settings := { ready.settings with noticeEn := flagPlaces, reportStation := 12 } }
    wires := ⟨[], [], [.event .short]⟩ }
theorem test_noticeAttempt : (after (.noticeAttempt (.event .short)) reporting).events.armed = false
    ∧ ((after (.noticeAttempt (.event .short)) reporting).queue 0 .g).length = 1 := by decide +kernel
theorem test_managementTake : ((after (.managementTake plain) (asked ready .command 99 [])).queue 0 .g).map (·.header.status) = [32] := by
  decide +kernel
theorem test_identify : ((after (.identify plain) (asked ready .query 1 [])).buffer 5).payload
    = [12, 229, 15, 164, 1, 1, 0, 128, 128, 1, 0, 4, 8, 4, 240] := by decide +kernel
theorem test_readTable : ((after (.readTable plain) (asked ready .query 2 [4, 0, 15, 9])).buffer 5).payload = [4, 1, 0, 16, 16, 0, 0] := by
  decide +kernel
theorem test_writeTableRule : (after (.writeTableRule plain) (asked ready .command 3 ([1, 9] ++ openRule.image))).rule 9 = openRule := by
  decide +kernel
theorem test_writeTableService :
    (after (.writeTableService plain) (asked ready .command 3 ([2, 9] ++ openService.image))).service 9 = openService := by decide +kernel
theorem test_writeTablePort :
    ((after (.writeTablePort plain) (asked ready .command 3 ([3, 2] ++ (PortRec.reset true).image))).portRec 2) = PortRec.reset true := by
  decide +kernel
theorem test_writeTableQueue : (after (.writeTableQueue plain) (asked ready .command 3 [4, 6, 33, 1, 0])).queueRec 1 2 = ⟨33, 256⟩ := by
  decide +kernel
theorem test_writeTableGateway : (after (.writeTableGateway plain)
    (asked ready .command 3 ([5, 0] ++ (Settings.reset 77 2).image))).settings = Settings.reset 77 2 := by decide +kernel
/-- R165: the flag of a mark moved across the present count is set in the act of the write, and its notice attempt made; the trigger
that waited before waits on. -/
theorem test_writeTableGateway_judges :
    let t := after (.writeTableGateway plain)
      (asked { reporting with pool := Vector.ofFn (fun i => ⟨i.val % 2, .port 2, [], [], 0⟩) } .command 3
        ([5, 0] ++ Settings.image { reporting.settings with lowMark := 200 }))
    t.flagSet (.rise .poolLow) = true ∧ t.wires.triggers = [.event .short] ∧ t.events.armed = false
      ∧ (t.queue 0 .g).map (·.header.kind) = [.notice, .reply] := by decide +kernel
/-- Log 10: a trigger whose flag a GATEWAY write has dropped from NOTICE_EN makes no attempt. -/
theorem test_noticeAttempt_dropped :
    let t := after (.noticeAttempt (.event .short)) (after (.writeTableGateway plain)
      (asked reporting .command 3 ([5, 0] ++ Settings.image { reporting.settings with noticeEn := 0 })))
    t.wires.triggers = [] ∧ t.events.armed = true ∧ (t.queue 0 .g).map (·.header.kind) = [.reply] := by decide +kernel
theorem test_clearTable_not_admitted : (after (.clearTable plain) (asked (serving openRule openService) .command 4 [1, 7, 7])).rule 7
    = openRule := by decide +kernel
theorem test_clearTable :
    (execute .clearTable (serving openRule openService) ((asked ready .command 4 [1, 7, 7]).request ⟨0, 5⟩)).state.rule 7
      = RuleEntry.reset := by decide +kernel
theorem test_readState : ((after (.readState plain) (asked ready .query 5 [])).buffer 5).payload.take 4 = [2, 0, 1, 1] := by decide +kernel
theorem test_setPortState : ((after (.setPortState plain) (asked ready .command 6 [2, 1])).port 2).state = .config := by decide +kernel
theorem test_setPortState_disabled :
    ((after (.setPortState plain) (asked ready .command 6 [2, 3])).queue 0 .g).map (·.header.status) = [38] := by decide +kernel
theorem test_abortQueue :
    (after (.abortQueue plain) (asked (ready.setQueue 0 (.data 2) [waiting]) .command 7 [0, 2])).wires.claims = [.undeliverable 0 3 true] := by
  decide +kernel
theorem test_cancelCall : ((after (.cancelCall plain) (asked (inCall ready .waiting) .command 8 [3, 0])).queue 0 .g).map (·.header.status)
    = [13, 0] := by decide +kernel
theorem test_cancelCall_after :
    ((after (.cancelCall ⟨true, []⟩) (asked (inCall ready .waiting) .command 8 [3, 0])).queue 0 .g).map (·.header.status) = [0, 13] := by
  decide +kernel
theorem test_readCall : ((after (.readCall plain) (asked (inCall ready .waiting) .query 9 [3])).buffer 5).payload
    = [2, 0, 0, 9, 0, 50, 0, 17, 0, 40, 1, 17, 0, 40, 3, 0, 0, 0, 3, 232] := by decide +kernel
theorem test_readEvents : ((after (.readEvents plain) (asked (ready.setFlag (.event .short)) .query 10 [])).buffer 5).payload
    = [0, 0, 0, 0, 0, 0, 0, 2, 0, 255, 255, 0, 0, 0, 0, 255, 255] := by decide +kernel
theorem test_readEvents_settles : (after (.readEvents plain) (asked reporting .query 10 [])).wires.triggers = []
    ∧ ((after (.readEvents plain) (asked reporting .query 10 [])).queue 0 .g).map (·.header.kind) = [.notice, .reply] := by decide +kernel
theorem test_readCounters : ((after (.readCounters plain) (asked ready .query 11 [4, 1])).buffer 5).payload.length = 24 := by decide +kernel
theorem test_probe :
    ((after (.probe plain) (asked ready .query 12 [0, 9, 240, 0, 40, 0, 0, 2])).buffer 5).payload
      = [253, 255, 255, 255, 255, 255, 255, 255, 255, 255, 0] := by decide +kernel
theorem test_restart : (after (.restart plain) (asked ready .command 13 [])).mgmt.restart = .awaiting 0 := by decide +kernel
theorem test_restartAct : (after .restartAct { ready with mgmt := ⟨[], .reported 2⟩ }).settings.reportPort = 2
    ∧ ((after .restartAct { ready with mgmt := ⟨[], .reported 2⟩ }).port 2).state = .listen := by decide +kernel
theorem test_characterRecognised : ((after (.characterRecognised 0 .idleMark) ready).port 0).idleCount = 1 := by decide +kernel
/-- R111, R132: the end character ends the FRAME under way; a collected one is validated, one passed over is not. -/
theorem test_characterRecognised_end :
    ((after (.characterRecognised 0 .endChar) (ready.setReception 0 (.taking [1, 2] 2))).port 0).control = [.answer (.nak .check)]
    ∧ ((after (.characterRecognised 0 .endChar) (ready.setReception 0 .passingOver)).port 0).reception = .none
    ∧ ((after (.characterRecognised 0 .endChar) (ready.setReception 0 .passingOver)).port 0).control = [] := by decide +kernel

/-! ## States and operands that meet the statements' hypotheses -/

/-- A pool with n free buffers. -/
def poolOf (n : Nat) : Vector Buffer 256 :=
  Vector.ofFn (fun i => if i.val < n then Buffer.reset else ⟨1, .port 2, [], [], 0⟩)

/-- The gateway with other LOW_MARK and HIGH_MARK. -/
def marked (s : State) (low high : Byte) : State :=
  { s with tables := { s.tables with settings := { s.settings with lowMark := low, highMark := high } } }

/-- Port 0 with other HOLD_MARK and RESUME_MARK, HOLDING or not. -/
def withHold (s : State) (mark resume : Byte) (own : Option Nat) : State :=
  (s.setPortRec 0 { s.portRec 0 with holdMark := mark, resumeMark := resume }).modPort 0 (fun x => { x with ownHold := own })

/-- A frame for another station and a management frame, as they come. -/
def dataFrame : List Byte := frameBytes (hdr .query 17 40 0 50) []
def mgmtFrame : List Byte := frameBytes (hdr .query 240 1 0 50) []

def withQuota (s : State) (n : Byte) : State := s.setPortRec 0 { s.portRec 0 with quota := n }

theorem witness_StepTakesFrontCommand : ({ ready with pending := [.restartAct] } : State).pending = .restartAct :: [] := rfl

theorem witness_EmptyQueueStepPassesTime : (trying waiting).pending = [] ∧ (trying waiting).resetAsserted = false
    ∧ ((trying waiting).port 0).attempt = some ⟨.data 2, [], .window 7⟩
    ∧ (after .resetAssert ready).resetAsserted = true ∧ (after .resetAssert ready).pending = []
    ∧ Instr.decision 0 ≠ .resetAssert ∧ ∀ b n, Instr.decision 0 ≠ .resetRelease b n := by
  refine ⟨rfl, rfl, by decide +kernel, by decide +kernel, by decide +kernel, by decide, ?_⟩
  intro b n h
  cases h

theorem witness_PartsWrittenOnlyByTheirOwners : writesTables (.decision 0) = false ∧ writesCapture (.frameReceived 0 []) = false
    ∧ leavesCalls (.withdraw 0 3) = true ∧ movesTime (.probe plain) = false ∧ fillsBuffers (.decision 0) = false := by decide

theorem witness_OtherPortsKeepTheirOwnState : portOfCommand (.decision 2) = some 2 ∧ (1 : Port) ≠ 2 := by decide

theorem witness_ResetsGiveResetValues :
    ({ ready with mgmt := ⟨[], .reported 2⟩ } : State).resetAsserted = false
      ∧ ({ ready with mgmt := ⟨[], .reported 2⟩ } : State).mgmt.restart = .reported 2 ∧ ∀ p, ready.mgmt.restart ≠ .reported p := by
  decide +kernel

theorem witness_validatesFrame : (online .forward).validatesFrame 0 ∧ ready.validatesFrame 0 := by
  unfold State.validatesFrame
  decide +kernel

/-- A frame for another station with the free count one above RESERVE and the occupancy one below the quota. -/
theorem witness_GoodFrameIsAdmitted :
    (withQuota { online .forward with pool := poolOf 5 } 1).validatesFrame 0
    ∧ goodFrame (State.collected .none dataFrame).1 (State.collected .none dataFrame).2 = true
    ∧ ¬ (withQuota { online .forward with pool := poolOf 5 } 1).refusesBusy 0 17
    ∧ (withQuota { online .forward with pool := poolOf 5 } 1).settings.reserve.toNat + 1
        = (withQuota { online .forward with pool := poolOf 5 } 1).freeCount
    ∧ (withQuota { online .forward with pool := poolOf 5 } 1).occupancy 0 + 1
        = ((withQuota { online .forward with pool := poolOf 5 } 1).portRec 0).quota.toNat := by
  unfold State.validatesFrame State.refusesBusy
  decide +kernel

/-- The bounds of the flags an admission sets: HOLD_MARK reached, RESUME_MARK met, LOW_MARK reached, a score of 96. -/
theorem witness_GoodFrame_flags :
    (withHold ready 1 0 none).holdBegins 0 ((withHold ready 1 0 none).occupancy 0 + 1)
    ∧ ¬ (withHold ready 2 0 none).holdBegins 0 ((withHold ready 2 0 none).occupancy 0 + 1)
    ∧ (withHold ready 2 1 (some 9)).holdEnds 0 ((withHold ready 2 1 (some 9)).occupancy 0 + 1)
    ∧ (withHold ready 0 0 (some 9)).holdEnds 0 ((withHold ready 0 0 (some 9)).occupancy 0 + 1)
    ∧ ¬ (withHold ready 2 0 (some 9)).holdEnds 0 ((withHold ready 2 0 (some 9)).occupancy 0 + 1)
    ∧ (marked ready 255 1).freeCount = (marked ready 255 1).settings.lowMark.toNat + 1
    ∧ ((ready.modPort 0 (fun x => { x with score := 96 })).port 0).score = 96 := by
  unfold State.holdBegins State.holdEnds
  decide +kernel

/-- Checks 1, 2 and 3 of admission. -/
theorem witness_FrameRefused_busy :
    ({ ready with mgmt := ⟨[], .awaiting 0⟩ } : State).refusesBusy 0 240 ∧ ({ ready with mgmt := ⟨[], .awaiting 0⟩ } : State).validatesFrame 0
    ∧ ready.refusesBusy 0 17
    ∧ ({ ready with mgmt := ⟨[⟨0, 1⟩, ⟨0, 2⟩, ⟨0, 3⟩, ⟨0, 4⟩], .clear⟩ } : State).refusesBusy 0 240
    ∧ goodFrame (State.collected .none mgmtFrame).1 (State.collected .none mgmtFrame).2 = true := by
  unfold State.validatesFrame State.refusesBusy
  decide +kernel

/-- Checks 4 and 5 of admission, each at its bound. -/
theorem witness_FrameRefused_full :
    (¬ ({ ready with pool := poolOf 4 } : State).refusesBusy 0 240
      ∧ ({ ready with pool := poolOf 4 } : State).freeCount = ({ ready with pool := poolOf 4 } : State).settings.reserve.toNat)
    ∧ ¬ (withQuota (ready.modBuffer 9 (fun _ => ⟨1, .port 0, [], [], 0⟩)) 1).refusesBusy 0 240
    ∧ (withQuota (ready.modBuffer 9 (fun _ => ⟨1, .port 0, [], [], 0⟩)) 1).settings.reserve.toNat
        < (withQuota (ready.modBuffer 9 (fun _ => ⟨1, .port 0, [], [], 0⟩)) 1).freeCount
    ∧ ((withQuota (ready.modBuffer 9 (fun _ => ⟨1, .port 0, [], [], 0⟩)) 1).portRec 0).quota.toNat
        = (withQuota (ready.modBuffer 9 (fun _ => ⟨1, .port 0, [], [], 0⟩)) 1).occupancy 0 := by
  unfold State.refusesBusy
  decide +kernel

def scored (s : State) (n : Nat) : State := s.modPort 0 (fun x => { x with score := n })

theorem witness_BadAndBrokenFramesAnsweredNakCheck : (scored ready 250).validatesFrame 0
    ∧ goodFrame (State.collected .none [1, 2, 3]).1 (State.collected .none [1, 2, 3]).2 = false
    ∧ ((scored ready 250).port 0).score + 4 < 255 ∧ (((scored ready 92).port 0).score < 96 ∧ 96 ≤ ((scored ready 92).port 0).score + 4)
    ∧ ¬ ((scored ready 96).port 0).score < 96 ∧ (Interruption.character .start).breaks = true
    ∧ (Interruption.character .idleMark).breaks = true ∧ Interruption.lossOfSignal.breaks = true := by
  unfold State.validatesFrame
  decide +kernel

/-- Port 0 collecting a FRAME, at score n. -/
def collecting (n : Nat) : State := (scored ready n).setReception 0 (.taking [1] 61)

theorem collecting_reception (n : Nat) : ((collecting n).port 0).reception = .taking [1] 61 := rfl

theorem collecting_validates (n : Nat) : (collecting n).validatesFrame 0 :=
  ⟨rfl, rfl, by rw [collecting_reception]; exact fun h => by cases h⟩

theorem collecting_watched (n : Nat) : ((collecting n).port 0).watch ≠ none := by
  rw [show ((collecting n).port 0).watch = some 1 from rfl]
  exact Option.some_ne_none 1

theorem collecting_breaks (n : Nat) (c : Instr) (i : Interruption) (h : breakOf 0 c = some i) (hs : ∀ a, c ≠ .strayAnswer 0 a) :
    (collecting n).breaksHere 0 c i :=
  ⟨h, collecting_validates n, rfl, fun _ => collecting_watched n, fun ⟨a, ha⟩ => absurd ha (hs a)⟩

/-- Each row that breaks the FRAME being collected, with what it brings. -/
theorem witness_BrokenFrames_rows :
    (collecting 250).breaksHere 0 (.characterRecognised 0 .start) (.character .start)
    ∧ (collecting 250).breaksHere 0 (.characterRecognised 0 .idleMark) (.character .idleMark)
    ∧ (collecting 250).breaksHere 0 (.characterRecognised 0 .control) (.character .control)
    ∧ (collecting 250).breaksHere 0 (.unrecognisedCharacter 0) .unrecognised
    ∧ (collecting 250).breaksHere 0 (.lossOfSignal 0) .lossOfSignal
    ∧ (collecting 250).breaksHere 0 (.idleRun 0) (.character .idleMark)
    ∧ (collecting 250).breaksHere 0 (.ackReceived 0) (.character .control)
    ∧ (collecting 250).breaksHere 0 (.nakReceived 0 .full) (.character .control)
    ∧ (collecting 250).breaksHere 0 (.holdReceived 0 255) (.character .control)
    ∧ (collecting 250).breaksHere 0 (.strayAnswer 0 .ack) (.character .control)
    ∧ ((collecting 250).port 0).score + 4 < 255 := by
  refine ⟨?_, ?_, ?_, ?_, ?_, ?_, ?_, ?_, ?_, ⟨rfl, collecting_validates 250, rfl, fun _ => collecting_watched 250, fun _ => rfl⟩, by decide +kernel⟩
  all_goals
    refine collecting_breaks 250 _ _ (by decide) ?_
    intro a h
    cases h

/-- An ACK breaks the FRAME as a control character does, and is then a stray answer. -/
theorem test_breaks_before_answer :
    ((after (.ackReceived 0) (collecting 3)).port 0).control = [.answer (.nak .check)]
    ∧ ((after (.ackReceived 0) (collecting 3)).port 0).score = 7 := by decide +kernel

/-- An answer completes the attempt of `trying`. -/
theorem trying_completes :
    (trying waiting).answerCompletes 0 (.data 2) { waiting with inTransmission := true } [] :=
  ⟨by decide +kernel, by decide +kernel, ⟨⟨.data 2, [], .window 7⟩, 7, by decide +kernel, rfl, rfl⟩, by decide +kernel⟩

theorem witness_AckCompletesAttempt : (trying waiting).resetAsserted = false
    ∧ (trying waiting).answerCompletes 0 (.data 2) { waiting with inTransmission := true } []
    ∧ waiting.restartReply = false ∧ ({ trying waiting with mgmt := ⟨[], .awaiting 1⟩ } : State).mgmt.restart = .awaiting 1 :=
  ⟨rfl, trying_completes, rfl, rfl⟩

/-- A request whose frame is in buffer 5, of origin port 0. -/
def framed : QueueEntry := { waiting with buffer := some 5 }

/-- `trying framed`, with its frame held once. -/
def holding : State := (trying framed).modBuffer 5 (fun _ => ⟨1, .port 0, [], [], 0⟩)

theorem holding_completes : holding.answerCompletes 0 (.data 2) { framed with inTransmission := true } [] :=
  ⟨by decide +kernel, by decide +kernel, ⟨⟨.data 2, [], .window 7⟩, 7, by decide +kernel, rfl, rfl⟩, by decide +kernel⟩

/-- The release of a last hold: LOW_MARK passed, HOLD_MARK still reached or RESUME_MARK met at the occupancy it leaves. -/
theorem witness_HoldReleased : holding.releaseJudges (some 5) 0 ∧ holding.lastHold (some 5)
    ∧ (marked holding 255 1).freeCount = (marked holding 255 1).settings.lowMark.toNat
    ∧ (withHold holding 1 0 (some 9)).holdEnds 0 ((withHold holding 1 0 (some 9)).occupancy 0 - 1)
    ∧ ¬ (withHold holding 1 0 none).holdBegins 0 ((withHold holding 1 0 none).occupancy 0 - 1)
    ∧ (withHold (holding.modBuffer 6 (fun _ => ⟨1, .port 0, [], [], 0⟩)) 1 0 none).holdBegins 0
        ((withHold (holding.modBuffer 6 (fun _ => ⟨1, .port 0, [], [], 0⟩)) 1 0 none).occupancy 0 - 1) := by
  refine ⟨⟨5, rfl, by decide +kernel⟩, ⟨5, rfl, by decide +kernel⟩, by decide +kernel, ?_⟩
  unfold State.holdBegins State.holdEnds
  decide +kernel

/-- A failure by NAK CHECK and one by a window that ran out, one attempt below the RETRY limit. -/
theorem witness_FailureKeepsEntry :
    FailsAttempt (trying waiting) 0 (.data 2) { waiting with inTransmission := true } [] (.nakReceived 0 .check) 8
    ∧ FailsAttempt (trying waiting) 0 (.data 2) { waiting with inTransmission := true } [] (.ackWindowExpiry 0) 8
    ∧ ((trying waiting).port 0).score + 8 < 255 ∧ waiting.oneShot = false ∧ waiting.noRetry = .none
    ∧ waiting.attempts + 1 ≤ ((trying waiting).portRec 0).retry.toNat :=
  ⟨.nakCheck trying_completes,
    .windowRanOut ⟨.data 2, [], .window 7⟩ 7 (by decide +kernel) (by decide +kernel) rfl rfl (by decide +kernel),
    by decide +kernel, rfl, rfl, by decide +kernel⟩

/-- The three grounds of a drop. -/
theorem witness_FailureDropsEntry :
    FailsAttempt (trying { waiting with oneShot := true }) 0 (.data 2) { waiting with oneShot := true, inTransmission := true } []
        (.nakReceived 0 .busy) 0
    ∧ FailsAttempt (trying { waiting with noRetry := .abort }) 0 (.data 2) { waiting with noRetry := .abort, inTransmission := true } []
        (.nakReceived 0 .full) 0
    ∧ FailsAttempt (trying { waiting with attempts := 3 }) 0 (.data 2) { waiting with attempts := 3, inTransmission := true } []
        (.nakReceived 0 .check) 8
    ∧ ((trying { waiting with attempts := 3 }).portRec 0).retry.toNat < 3 + 1 := by
  refine ⟨.nakBusy ?_, .nakFull ?_, .nakCheck ?_, by decide +kernel⟩
  all_goals
    exact ⟨by decide +kernel, by decide +kernel, ⟨⟨.data 2, [], .window 7⟩, 7, by decide +kernel, rfl, rfl⟩, by decide +kernel⟩

/-- Each cause of a raise, with the score that reaches 255 exactly. -/
theorem witness_ScoreAtCapIsolates :
    RaisesScore (scored ready 251) 0 (.frameReceived 0 [1, 2, 3]) 4 ∧ RaisesScore (scored ready 251) 0 (.brokenFrame 0 .unrecognised) 4
    ∧ 255 ≤ ((scored ready 251).port 0).score + 4 ∧ ((scored ready 251).port 0).state.inService = true
    ∧ RaisesScore (trying waiting) 0 (.nakReceived 0 .check) 8
    ∧ 255 ≤ ((scored (trying waiting) 247).port 0).score + 8
    ∧ RaisesScore ((scored ready 251).setReception 0 (.taking [1] 1)) 0 (.characterRecognised 0 .endChar) 4
    ∧ ∀ d ∈ (scored ready 251).wires.claims, d.isLeaving 0 = false := by
  have h : (scored ready 251).validatesFrame 0 := by
    unfold State.validatesFrame
    decide +kernel
  have k : ((scored ready 251).setReception 0 (.taking [1] 1)).validatesFrame 0 := by
    unfold State.validatesFrame
    decide +kernel
  exact ⟨.badFrame [1, 2, 3] h (by decide +kernel), .brokenFrame .unrecognised rfl h, by decide +kernel, by decide +kernel,
    .failure _ (.data 2) _ [] (.nakCheck trying_completes), by decide +kernel, .badEnd k (by decide +kernel) (by decide +kernel),
    by decide +kernel⟩

/-- A FRAME broken by an idle run at score 251, with one being sent on the same port; no row breaks it at the line of another. -/
theorem witness_ScoreAtCap_broken :
    RaisesScore (collecting 251) 0 (.idleRun 0) 4 ∧ RaisesScore (collecting 251) 0 (.characterRecognised 0 .start) 4
    ∧ 255 ≤ ((collecting 251).port 0).score + 4
    ∧ ((after (.characterRecognised 0 .start) (collecting 251)).port 0).reception = .passingOver
    ∧ ((after (.idleRun 0) (collecting 251)).port 0).recoveryTally = 1
    ∧ passedOver ((collecting 251).port 0).reception = .passingOver ∧ sentOnLeaving .isolated (.frame [1]) = .idleMark
    ∧ sentOnLeaving .disabled (.frame [1]) = .silent ∧ sentOnLeaving .disabled (.control (.hold 0)) = .control (.hold 0) := by
  refine ⟨.brokenHere _ (.character .idleMark) (collecting_breaks 251 _ _ (by decide) ?_),
    .brokenHere _ (.character .start) (collecting_breaks 251 _ _ (by decide) ?_), by decide +kernel⟩
  all_goals
    intro a h
    cases h

/-- A failure that reaches 255 exactly and keeps its entry, and one that drops it. -/
theorem witness_ScoreAtCap_failures :
    FailsAttempt (scored (trying waiting) 247) 0 (.data 2) { waiting with inTransmission := true } [] (.nakReceived 0 .check) 8
    ∧ ¬ (waiting.oneShot = true ∨ waiting.noRetry ≠ .none
        ∨ ((scored (trying waiting) 247).portRec 0).retry.toNat < waiting.attempts + 1)
    ∧ FailsAttempt (scored (trying { waiting with attempts := 3 }) 247) 0 (.data 2)
        { waiting with attempts := 3, inTransmission := true } [] (.nakReceived 0 .check) 8
    ∧ (∀ d ∈ (scored (trying waiting) 247).wires.claims, d.isLeaving 0 = false) := by
  refine ⟨.nakCheck ?_, by decide +kernel, .nakCheck ?_, by decide +kernel⟩
  all_goals
    exact ⟨by decide +kernel, by decide +kernel, ⟨⟨.data 2, [], .window 7⟩, 7, by decide +kernel, rfl, rfl⟩, by decide +kernel⟩

theorem witness_StrayAnswersHoldsAndIntervals : ready.resetAsserted = false ∧ ready.awaitsAnswer 0 = false
    ∧ (ready.port 0).reception.isTaking = false ∧ ready.receives 0 = true ∧ State.reset.receives 0 = false
    ∧ ((after (.holdReceived 0 255) ready).port 0).partnerHold = some 12750 ∧ (ready.port 0).partnerHold = none
    ∧ look ((ready.modPort 0 (fun x => { x with intervals := put x.intervals 3 (some 0) })).port 0).intervals 3 = some 0
    ∧ look (ready.port 0).intervals 3 = none := by decide +kernel

theorem witness_OwnHoldIsResent :
    ((ready.modPort 0 (fun x => { x with ownHold := some 0 })).port 0).ownHold = some 0 ∧ ready.resetAsserted = false
    ∧ (ready.port 0).state ≠ .disabled ∧ (ready.port 0).state ≠ .isolated ∧ (ready.port 0).reception.isTaking = false
    ∧ (ready.port 0).watch = some 1 ∧ ready.pending = [] := by decide +kernel

theorem witness_IdleRunsAndCharactersAtTheLine : State.reset.resetAsserted = false ∧ (State.reset.port 0).state ≠ .disabled
    ∧ (State.reset.port 0).state ≠ .isolated ∧ (State.reset.port 0).reception.isTaking = false ∧ (State.reset.port 0).linkUp = false
    ∧ (ready.port 0).linkUp = true ∧ (State.reset.port 1).state = .disabled
    ∧ ((ready.modPort 0 (fun x => { x with reception := .taking [] 61 })).port 0).reception = .taking [] 61
    ∧ ((ready.setReception 0 .passingOver).port 0).reception = .passingOver ∧ ready.receives 0 = true
    ∧ State.reset.receives 0 = false := by decide +kernel

/-- The 16th idle mark hands the idle run in its own act (R115): the link comes UP, and an ISOLATED port counts it. -/
theorem witness_IdleRuns_sixteenth :
    ((State.reset.modPort 0 (fun x => { x with idleCount := 14 })).port 0).idleCount < 15
    ∧ 15 ≤ ((State.reset.modPort 0 (fun x => { x with idleCount := 15 })).port 0).idleCount
    ∧ ((after (.characterRecognised 0 .idleMark) (State.reset.modPort 0 (fun x => { x with idleCount := 15 }))).port 0).idleCount = 0
    ∧ ((after (.characterRecognised 0 .idleMark) (State.reset.modPort 0 (fun x => { x with idleCount := 15 }))).port 0).linkUp = true
    ∧ ((after (.characterRecognised 0 .idleMark) ((online .isolated).modPort 0 (fun x => { x with idleCount := 15 }))).port 0).recoveryTally
      = 1 := by decide +kernel

/-- The three cases of an idle run on an ISOLATED port: tally 62, and 63 under MANUAL and under AUTO. -/
theorem witness_CleanLineRecoversIsolatedPort : ((online .isolated).port 0).state = .isolated
    ∧ (((online .isolated).modPort 0 (fun x => { x with recoveryTally := 62 })).port 0).recoveryTally < 63
    ∧ 63 ≤ (((online .isolated).modPort 0 (fun x => { x with recoveryTally := 63 })).port 0).recoveryTally
    ∧ ((online .isolated).portRec 0).recovery ≠ .manual
    ∧ ((State.setPortRec (online .isolated) 0 { PortRec.reset true with recovery := .manual }).portRec 0).recovery = .manual
    ∧ ((online .isolated).port 0).recoveryTally = 0 ∧ ((scored (online .isolated) 255).port 0).score = 255 := by
  decide +kernel

theorem witness_LossOfSignalTakesLinkDown : (ready.port 0).state ≠ .disabled
    ∧ (ready.port 0).reception.isTaking = false ∧ (ready.port 0).watch = some 1 ∧ (ready.port 0).linkUp = true
    ∧ (State.reset.port 0).linkUp = false ∧ (State.reset.port 1).watch = none := by decide +kernel

theorem witness_TransmitterChoosesNextSymbol : (State.reset.port 1).state.inService = false ∧ (ready.port 0).state.inService = true
    ∧ ((ready.pushControl 0 (.hold 0)).port 0).control = [.hold 0] ∧ (ready.port 0).control = []
    ∧ ((ready.modPort 0 (fun x => { x with attempt := some ⟨.g, [], .waiting⟩ })).port 0).attempt = some ⟨.g, [], .waiting⟩
    ∧ ((ready.modPort 0 (fun x => { x with attempt := some ⟨.g, [], .sending⟩ })).port 0).attempt = some ⟨.g, [], .sending⟩
    ∧ (∀ a, (ready.port 0).attempt = some a → a.phase = .waiting → ready.awaitsRestartAct)
    ∧ ({ ready with mgmt := ⟨[], .reported 2⟩ } : State).awaitsRestartAct ∧ ¬ ready.awaitsRestartAct := by
  refine ⟨by decide +kernel, by decide +kernel, by decide +kernel, by decide +kernel, by decide +kernel, by decide +kernel, ?_,
    ⟨2, rfl⟩, ?_⟩
  · intro a h
    have : (ready.port 0).attempt = none := by decide +kernel
    simp [this] at h
  · rw [← restartDue_iff]
    decide +kernel

/-- The restart act is due, with an attempt that waits and with one whose FRAME is being sent. -/
theorem witness_Transmitter_restart_due :
    (({ ready.modPort 0 (fun x => { x with attempt := some ⟨.g, [], .waiting⟩ }) with mgmt := ⟨[], .reported 2⟩ } : State).port 0).attempt
      = some ⟨.g, [], .waiting⟩
    ∧ (({ ready.modPort 0 (fun x => { x with attempt := some ⟨.g, [], .sending⟩ }) with mgmt := ⟨[], .reported 2⟩ } : State).port 0).attempt
      = some ⟨.g, [], .sending⟩ := by decide +kernel

theorem witness_AttemptSendsChosenHead :
    ((online .forward).setQueue 0 (.data 2) [waiting]).mayStart 0 = true
    ∧ ((online .forward).setQueue 0 (.data 2) [waiting]).choose 0 = some (.data 2) ∧ State.reset.mayStart 0 = false
    ∧ ready.choose 0 = none := by decide +kernel

/-- Heads of each kind that are chosen: without a buffer, forwarded, the gateway's own and a mirror copy. -/
theorem witness_AttemptSends_kinds :
    waiting.buffer = none ∧ ((online .forward).setQueue 0 (.data 2) [framed]).choose 0 = some (.data 2)
    ∧ framed.buffer = some 5 ∧ framed.kind = .forwarded
    ∧ ((online .forward).setQueue 0 .g [newEntry .gateway (hdr .notice 12 0 12 0) (some 5) none false none]).choose 0 = some .g
    ∧ ((online .forward).setQueue 0 .m [newEntry .mirror (hdr .notice 12 0 19 0) (some 5) none false (some ⟨1, 7, 255, 3⟩)]).choose 0
      = some .m := by decide +kernel

/-- M with URGENCY 0 beside D2 with URGENCY 3, and G beside both. -/
theorem witness_ChoiceFollowsArbitration :
    (((online .forward).setQueue 0 (.data 2) [waiting]).setQueue 0 .m [waiting]).isCandidate 0 .m = true
    ∧ (((online .forward).setQueue 0 (.data 2) [waiting]).setQueue 0 .m [waiting]).isCandidate 0 .g = false
    ∧ (((online .forward).setQueue 0 (.data 2) [waiting]).setQueue 0 .m [waiting]).choose 0 = some (.data 2)
    ∧ (((online .forward).setQueue 0 (.data 2) [waiting]).setQueue 0 .g [waiting]).isCandidate 0 .g = true := by decide +kernel

/-! ### Decisions -/

def judged (s : State) (h : Header) : Settled := s.judgeArrival 0 h

/-- Each way the rule stage settles a frame, MIN_LEN met exactly and missed by one, FIX_LEN absent and given. -/
theorem witness_RuleStageSettlesFrame :
    judged ready (hdr .query 17 40 2 50) = .unscanned ∧ judged (serving openRule openService) (hdr .query 240 40 2 50) = .unscanned
    ∧ judged (serving RuleEntry.reset openService) (hdr .query 17 40 2 50) = .noRule
    ∧ judged (serving { openRule with verdict := .discard } openService) (hdr .query 17 40 2 50) = .discard 7
    ∧ judged (serving { openRule with verdict := .refuse } openService) (hdr .reply 17 40 2 50) = .discard 7
    ∧ judged (serving { openRule with verdict := .refuse } openService) (hdr .notice 17 40 2 50)
      = .refusal 7 .rule 7 ⟨none, none, none, none⟩
    ∧ judged (serving { openRule with minLen := 3 } openService) (hdr .reply 17 40 2 50) = .shortReply 7
    ∧ judged (serving { openRule with minLen := 3 } openService) (hdr .command 17 40 2 50)
      = .refusal 7 .short 7 ⟨none, none, none, none⟩
    ∧ judged (serving { openRule with minLen := 2 } openService) (hdr .reply 17 40 2 50) = .matching 7 2
    ∧ judged (serving { openRule with fixLen := some 9 } openService) (hdr .reply 17 40 2 50) = .matching 7 9
    ∧ judged (serving { openRule with fixLen := some 9 } openService) (hdr .query 17 40 2 50)
      = (serving { openRule with fixLen := some 9 } openService).serviceStage 7 (hdr .query 17 40 2 50) 1 9
    ∧ judged (serving { openRule with maxRing := 0 } openService) (hdr .query 17 40 2 50) = .noRule := by decide +kernel

/-- A frame of station 9 at the service stage, through rule 7. -/
def staged (s : State) (h : Header) (ring : RingNo) (len : Nat) : Settled := s.serviceStage 7 h ring len

/-- Steps 4 and 5: no entry, a gate without a usable target, and entries and targets that are not present. -/
theorem witness_ServiceStage_entries :
    staged (serving openRule openService) (hdr .query 19 40 2 50) 1 2 = .refusal 7 .noService 65535 ⟨none, none, none, some 2⟩
    ∧ staged (serving openRule openService) (hdr .query 17 256 2 50) 1 2 = .refusal 7 .noService 65535 ⟨none, none, none, some 2⟩
    ∧ staged (serving openRule { openService with svcHi := 39 }) (hdr .query 18 5 2 50) 1 2
      = .refusal 7 .noService 1 ⟨none, none, none, some 2⟩
    ∧ staged (serving openRule { openService with present := false }) (hdr .query 17 255 2 50) 1 2
      = .refusal 7 .notPresent 0 ⟨some 0, none, none, some 2⟩
    ∧ staged ((serving openRule openService).setService 1 { openGate with present := false }) (hdr .query 18 5 2 50) 1 2
      = .refusal 7 .notPresent 1 ⟨some 0, none, none, some 2⟩
    ∧ staged (serving openRule { openService with present := false }) (hdr .query 18 5 2 50) 1 2
      = .refusal 7 .notPresent 0 ⟨some 0, none, none, some 2⟩ := by decide +kernel

/-- Steps 6 to 10, each failing alone, with LIMIT missed by one. -/
theorem witness_ServiceStage_refusals :
    staged (serving openRule { openService with cmdOk := false }) (hdr .command 17 40 2 50) 1 2
      = .refusal 7 .access 0 ⟨some 0, none, none, some 2⟩
    ∧ staged (serving openRule openService) (hdr .notice 18 5 2 50) 1 2 = .refusal 7 .access 1 ⟨some 0, none, none, some 2⟩
    ∧ staged (serving openRule openService) (hdr .query 17 40 2 50) 2 2 = .refusal 7 .ring 0 ⟨some 0, none, none, some 2⟩
    ∧ staged (serving openRule openService) (hdr .query 18 5 2 50) 2 2 = .refusal 7 .ring 1 ⟨some 0, none, none, some 2⟩
    ∧ staged (serving openRule openService) (hdr .query 18 5 2 50) 0 2 = .refusal 7 .ring 0 ⟨some 0, none, none, some 2⟩
    ∧ staged (serving openRule { openService with limit := 1 }) (hdr .query 17 40 2 50) 1 2
      = .refusal 7 .tooLong 0 ⟨some 0, some 1, none, some 2⟩
    ∧ staged (serving openRule { openService with limit := 7 }) (hdr .query 18 5 48 50) 1 48
      = .refusal 7 .tooLong 0 ⟨some 0, some 1, none, some 8⟩
    ∧ staged ((serving openRule openService).modPort 1 (fun x => { x with state := .listen })) (hdr .notice 17 40 2 50) 1 2
      = .refusal 7 .portDown 0 ⟨some 0, some 1, none, some 2⟩
    ∧ staged { serving openRule openService with calls := ⟨(serving openRule openService).calls.records, []⟩ } (hdr .query 18 5 2 50) 1 2
      = .refusal 7 .noRecord 1 ⟨some 0, some 1, some 1, some 2⟩ := by decide +kernel

/-- What passes every step, through each kind of entry, with LIMIT met exactly; a command at ring 0 without CMD_OK; a notice without
a free record. -/
theorem witness_ServiceStage_forwards :
    staged (serving openRule { openService with limit := 2 }) (hdr .query 17 40 2 50) 1 2 = .forward 7 ⟨0, 0, 1, 1, 17, 40, 2⟩
    ∧ staged (serving openRule { openService with kind := .shared, ring := 2 }) (hdr .query 17 40 2 50) 1 2
      = .forward 7 ⟨0, 0, 2, 1, 17, 40, 2⟩
    ∧ staged (serving openRule { openService with kind := .shared, ring := 2 }) (hdr .query 17 40 2 50) 3 2
      = .forward 7 ⟨0, 0, 3, 1, 17, 40, 2⟩
    ∧ staged (serving openRule { openService with limit := 8 }) (hdr .query 18 5 48 50) 1 48 = .forward 7 ⟨1, 0, 1, 1, 17, 40, 8⟩
    ∧ staged (serving openRule { openService with cmdOk := false }) (hdr .command 17 40 2 50) 0 2 = .forward 7 ⟨0, 0, 0, 1, 17, 40, 2⟩
    ∧ staged { serving openRule openService with calls := ⟨(serving openRule openService).calls.records, []⟩ } (hdr .notice 17 40 2 50) 1 2
      = .forward 7 ⟨0, 0, 1, 1, 17, 40, 2⟩ := by decide +kernel

/-- The four kinds of discard. -/
theorem witness_DecisionDiscards :
    ((arrived ready (hdr .query 17 40 2 50) [1, 2]).port 0).awaiting = [5]
    ∧ judged ready (hdr .query 17 40 2 50) = .unscanned
    ∧ judged (serving RuleEntry.reset openService) (hdr .query 17 40 2 50) = .noRule
    ∧ judged (serving { openRule with verdict := .discard } openService) (hdr .query 17 40 2 50) = .discard 7
    ∧ judged (serving { openRule with minLen := 3 } openService) (hdr .reply 17 40 2 50) = .shortReply 7 := by decide +kernel

/-- Refusals with each flag, of requests and of a notice, with G open and with G full. -/
theorem witness_DecisionRefuses :
    judged (serving { openRule with minLen := 3 } openService) (hdr .query 17 40 2 50)
      = .refusal 7 .short 7 ⟨none, none, none, none⟩
    ∧ judged (serving openRule { openService with present := false }) (hdr .query 17 40 2 50)
      = .refusal 7 .notPresent 0 ⟨some 0, none, none, some 2⟩
    ∧ judged (serving openRule { openService with cmdOk := false }) (hdr .command 17 40 2 50)
      = .refusal 7 .access 0 ⟨some 0, none, none, some 2⟩
    ∧ judged (serving openRule { openService with ring := 0 }) (hdr .notice 17 40 2 50)
      = .refusal 7 .ring 0 ⟨some 0, none, none, some 2⟩
    ∧ (hdr .query 17 40 2 50).kind.isRequest = true ∧ (hdr .notice 17 40 2 50).kind = .notice
    ∧ (serving openRule openService).accepts 0 .g = true
    ∧ ((serving openRule openService).setQueue 0 .g (List.replicate 8 waiting)).accepts 0 .g = false
    ∧ (Header.decode ((arrived (serving openRule openService) (hdr .query 17 40 2 50) [1, 2]).buffer 5).image)
      = hdr .query 17 40 2 50 := by decide +kernel

/-- A permitted request and a permitted notice, with the data queue open and with it full. -/
theorem witness_DecisionForwards :
    judged (serving openRule openService) (hdr .query 17 40 2 50) = .forward 7 ⟨0, 0, 1, 1, 17, 40, 2⟩
    ∧ judged (serving openRule openService) (hdr .notice 17 40 2 50) = .forward 7 ⟨0, 0, 1, 1, 17, 40, 2⟩
    ∧ (serving openRule openService).calls.freeList = 0 :: (serving openRule openService).calls.freeList.tail
    ∧ (serving openRule openService).accepts 1 (.data 2) = true
    ∧ ((serving openRule openService).setQueue 1 (.data 2) (List.replicate 16 waiting)).accepts 1 (.data 2) = false
    ∧ ((marked (serving openRule openService) 0 1).record 0).state = .free
    ∧ (marked (serving openRule openService) 0 1).recordsInUse + 1 = (marked (serving openRule openService) 0 1).settings.highMark.toNat := by
  decide +kernel

/-- The gateway with a monitor port and a monitor station. -/
def monitored (s : State) (m : Option Port) (st : Station) : State :=
  { s with tables := { s.tables with settings := { s.settings with monitorPort := m, monitorStation := st } } }

/-- The monitor on port 3 in FORWARD, with n entries in its M. -/
def monitoring (n : Nat) : State := (monitored (online .forward) (some 3) 254).setQueue 3 .m (List.replicate n framed)

/-- R73 at its bounds: a data queue one below DEPTH and at it, in FORWARD and in LISTEN; G at 7 and 8; M at M_DEPTH. -/
theorem witness_accepts :
    ((serving openRule openService).setQueue 1 (.data 2) (List.replicate 15 waiting)).accepts 1 (.data 2) = true
    ∧ ((serving openRule openService).queueRec 1 2).depth = 16 ∧ (online .listen).accepts 1 (.data 2) = false
    ∧ (ready.setQueue 0 .g (List.replicate 7 waiting)).accepts 0 .g = true
    ∧ (ready.setQueue 0 .g (List.replicate 8 waiting)).accepts 0 .g = false
    ∧ (monitoring 15).accepts 3 .m = true ∧ (monitoring 16).accepts 3 .m = false ∧ (monitoring 0).settings.mDepth = 16
    ∧ (monitoring 0).accepts 2 .m = false := by decide +kernel

/-- R49, R53: a tag names a record in use with its own GEN in the high byte and a low byte of at most 127. -/
theorem witness_claimed :
    (inCall ready .queued).claimed 3 = some 3 ∧ (inCall ready .queued).claimed 259 = none
    ∧ (inCall ready .queued).claimed 131 = none ∧ (inCall ready .queued).claimed 4 = none
    ∧ (ready.setRecord 127 (openCall .queued)).claimed 127 = some 127 ∧ (3 : Tag).toNat % 256 = (3 : CallIx).val
    ∧ ((inCall ready .queued).record 3).gen.toNat = (3 : Tag).toNat / 256 := by decide +kernel

/-- A stale reply, a mismatched one and a matching one; the data queue open and full. -/
theorem witness_ReplyIsMatchedToItsCall :
    (serving openRule openService).judgeArrival 1 (hdr .reply 9 40 2 3) = .matching 7 2
    ∧ (serving openRule openService).claimed 3 = none
    ∧ (inCall (serving openRule openService) .queued).claimed 3 = some 3
    ∧ (¬ ((1 : Port) = (openCall .queued).tgtPort ∧ (9 : Station) = (openCall .queued).tgtStation))
    ∧ (1 : Port) = (openCall .queued).tgtPort ∧ (17 : Station) = (openCall .queued).tgtStation
    ∧ (40 : Svc) = (openCall .queued).tgtSvc ∧ (9 : Station) = (openCall .queued).reqStation
    ∧ (serving openRule openService).effectiveRing 1 (hdr .reply 9 40 2 3) ≤ (openCall .queued).carriedRing
    ∧ (inCall (serving openRule openService) .queued).accepts 0 (.data 2) = true
    ∧ (inCall (online .listen) .queued).accepts 0 (.data 2) = false
    ∧ (marked (inCall (serving openRule openService) .queued) 0 1).recordsInUse
      = (marked (inCall (serving openRule openService) .queued) 0 1).settings.highMark.toNat := by decide +kernel

/-- A frame forwarded through each kind of entry. -/
theorem witness_OnlyPermittedFramesAreForwarded :
    judged (serving openRule openService) (hdr .command 17 40 2 50) = .forward 7 ⟨0, 0, 1, 1, 17, 40, 2⟩
    ∧ judged (serving openRule { openService with kind := .shared, ring := 3 }) (hdr .query 17 40 2 50)
      = .forward 7 ⟨0, 0, 3, 1, 17, 40, 2⟩
    ∧ judged (serving openRule { openService with ring := 0 }) (hdr .query 18 5 9 50) = .forward 7 ⟨1, 0, 0, 1, 17, 40, 8⟩ := by
  decide +kernel

/-- Step 6 for a command: permitted by the entry, by ring 0, and refused for want of each permit. -/
theorem witness_AccessOfCommands :
    (serving openRule openService).addressedEntry (hdr .command 17 40 2 50) = some 0
    ∧ ((serving openRule openService).rule 7).cmdCap = true ∧ ((serving openRule openService).service 0).cmdOk = true
    ∧ ((serving openRule { openService with cmdOk := false }).service 0).cmdOk = false
    ∧ (serving openRule openService).settings.strict = false
    ∧ ((serving { openRule with cmdCap := false } openService).rule 7).cmdCap = false := by decide +kernel

/-- Step 6: a query, a notice to a GATE, a permitted notice and one that is not, and a frame that fails access and ring. -/
theorem witness_AccessOfQueriesAndNotices :
    (serving openRule openService).addressedEntry (hdr .query 17 40 2 50) = some 0
    ∧ (serving openRule openService).addressedEntry (hdr .notice 18 5 2 50) = some 1
    ∧ ((serving openRule openService).service 1).kind = .gate
    ∧ (serving openRule openService).targetUsable ((serving openRule openService).service 1) = true
    ∧ (serving openRule openService).offlineEntry 0 = none ∧ (serving openRule openService).offlineEntry 1 = none
    ∧ ((serving openRule openService).service 0).kind ≠ .gate
    ∧ (((serving openRule openService).rule 7).noticeCap = true ∧ ((serving openRule openService).service 0).noticeOk = true)
    ∧ ¬ (((serving openRule { openService with noticeOk := false }).rule 7).noticeCap = true
        ∧ ((serving openRule { openService with noticeOk := false }).service 0).noticeOk = true)
    ∧ (serving openRule { openService with noticeOk := false, ring := 0 }).accessPermitted openRule
        { openService with noticeOk := false, ring := 0 } .notice 1 = false
    ∧ (serving openRule { openService with noticeOk := false, ring := 0 }).ringFailure 0 1 = some 0 := by decide +kernel

/-- The ways a copy is made or lost, with the monitor on port 3. -/
theorem witness_MirrorCopyFollowsOutcome :
    (judged (serving { openRule with mirror := true } openService) (hdr .query 17 40 2 50)).matchedRule = some 7
    ∧ ((serving openRule openService).rule 7).mirror = false
    ∧ ((serving { openRule with mirror := true } openService).rule 7).mirror = true
    ∧ (monitored (serving openRule openService) (some 3) 254).settings.monitorPort = some 3
    ∧ (monitored (serving openRule openService) (some 3) 254).settings.monitorStation ≠ 255
    ∧ (monitored (serving openRule openService) (some 3) 254).accepts 3 .m = true
    ∧ (monitored (serving openRule openService) (some 3) 255).settings.monitorStation = 255
    ∧ (monitored (online .listen) (some 3) 254).accepts 3 .m = false
    ∧ (serving openRule openService).settings.monitorPort = none := by decide +kernel

/-! ### Claims, deadlines, withdraws and notices -/

theorem witness_TagClaimsActOnTheirCall :
    (claiming ready (.delivered 1 3)).wires.claims.find? (Claim.isDelivered 1) = some (.delivered 1 3)
    ∧ (claiming ready (.undeliverable 1 3 true)).wires.claims.find? (Claim.isUndeliverable 1) = some (.undeliverable 1 3 true)
    ∧ (inCall ready .queued).claimed 3 = some 3 ∧ ((inCall ready .queued).record 3).state = .queued
    ∧ (inCall ready .waiting).claimed 3 = some 3 ∧ ((inCall ready .waiting).record 3).state ≠ .queued
    ∧ ready.claimed 3 = none ∧ ready.claimed 128 = none
    ∧ (marked (inCall ready .queued) 0 1).recordsInUse = (marked (inCall ready .queued) 0 1).settings.highMark.toNat
    ∧ ready.wires.claims.find? (Claim.isDelivered 1) = none ∧ ready.wires.claims.find? (Claim.isUndeliverable 1) = none := by
  decide +kernel

theorem witness_PortDownClaimsEndCalls :
    Claim.portDown 1 ∈ (claiming (inCall ready .queued) (.portDown 1)).wires.claims
    ∧ (claiming ready (.targetPortDown 1 3)).wires.claims.find? (Claim.isTargetPortDown 1) = some (.targetPortDown 1 3)
    ∧ (inCall ready .waiting).claimed 3 = some 3 ∧ ((inCall ready .waiting).record 3).tgtPort = 1
    ∧ ((inCall ready .waiting).record 3).reqPort ≠ 1 ∧ ready.claimed 3 = none := by decide +kernel

/-- The PORT_DOWN reply of the one call whose target is on port 1, with room in G and without. -/
theorem witness_PortDownClaims_replies :
    ((after (.portDownClaim 1) (claiming (inCall ready .waiting) (.portDown 1))).queue 0 .g) = [callReplyEntry (openCall .waiting) .portDown]
    ∧ (after (.portDownClaim 1) (claiming ((inCall ready .waiting).setQueue 0 .g (List.replicate 8 waiting)) (.portDown 1))).flagSet
      (.event .gwReplyLost) = true
    ∧ (marked (inCall ready .waiting) 0 1).settings.highMark.toNat ≤ (marked (inCall ready .waiting) 0 1).recordsInUse
    ∧ (after (.portDownClaim 1) (claiming (marked (inCall ready .waiting) 0 1) (.portDown 1))).recordsInUse < 1 := by decide +kernel

theorem witness_CallExpiresAtDeadline : ((inCall ready .queued).record 3).inUse = true ∧ (inCall ready .queued).resetAsserted = false
    ∧ reached (inCall ready .queued).timeBase ((inCall ready .queued).record 3).deadline = false ∧ reached 1000 1000 = true
    ∧ (ready.record 3).state = .free := by decide +kernel

/-- A withdraw that waits, with an entry it removes that holds a buffer. -/
theorem witness_WithdrawRemovesRequest : (0, 3) ∈ (ready.addWithdraw 0 3).wires.withdraws ∧ (0, 3) ∉ ready.wires.withdraws
    ∧ [framed].filter (fun e => e.callTag == some 3 && !e.inTransmission) = [framed] ∧ framed.buffer = some 5 := by
  decide +kernel

theorem witness_NoticeAttemptBuildsOneNotice :
    leavesTriggers (.decision 0) = true ∧ reporting.resetAsserted = false
    ∧ Flag.event .short ∈ reporting.wires.triggers ∧ reporting.flagSet (.event .short) = true
    ∧ reporting.events.armed = true ∧ reporting.settings.reportStation ≠ 255
    ∧ (reporting.port reporting.settings.reportPort).state.inService = true ∧ 1 ≤ reporting.freeCount
    ∧ (reporting.port reporting.settings.reportPort).gq.length < 8
    ∧ reporting.flagEnabled (.rise .poolLow) = true ∧ reporting.flagSet (.rise .poolLow) = false
    ∧ (marked reporting 255 1).freeCount = (marked reporting 255 1).settings.lowMark.toNat + 1
    ∧ Flag.event .short ∉ ready.wires.triggers ∧ reporting.flagEnabled (.event .short) = true
    ∧ ({ ready with wires := ⟨[], [], [.event .short]⟩ } : State).flagEnabled (.event .short) = false := by decide +kernel

/-- Each ground on which no notice is made, and a notice that leaves out the flag of a trigger that still waits. -/
theorem witness_NoticeAttempt_grounds :
    reporting.disarm.events.armed = false ∧ ready.settings.reportStation = 255
    ∧ ((reporting.modPort 0 (fun x => { x with state := .config })).port reporting.settings.reportPort).state.inService = false
    ∧ ({ reporting with pool := poolOf 0 } : State).freeCount = 0
    ∧ 8 ≤ ((reporting.setQueue 0 .g (List.replicate 8 waiting)).port reporting.settings.reportPort).gq.length
    ∧ ((after (.noticeAttempt (.event .short)) (reporting.raise (.event .noRule))).buffer 0).payload
      = [0, 0, 0, 0, 0, 0, 0, 2, 0, 0, 0, 0] := by decide +kernel

/-! ### Management -/

/-- The head of `asked` runs an operation with its payload. -/
theorem witness_runs_reads :
    (asked ready .query 1 []).runs ⟨0, 5⟩ .identify ∧ (asked ready .query 5 []).runs ⟨0, 5⟩ .readState
    ∧ (asked ready .query 10 []).runs ⟨0, 5⟩ .readEvents ∧ (asked ready .command 13 []).runs ⟨0, 5⟩ .restart := by
  unfold State.runs
  decide +kernel

theorem witness_ManagementHeadIsJudged :
    ({ ready with mgmt := ⟨[], .awaiting 0⟩ } : State).mgmt.restart ≠ .clear ∧ ready.mgmt.queue = []
    ∧ (asked ready .reply 1 []).mgmt.queue = [⟨0, 5⟩] ∧ (asked ready .reply 1 []).mgmt.restart = .clear
    ∧ (Header.decode ((asked ready .reply 1 []).buffer 5).image).kind.isRequest = false
    ∧ (Header.decode ((asked ready .query 1 []).buffer 5).image).kind.isRequest = true
    ∧ ((serving openRule openService).portRec 0).mgmtAdmit = false ∧ (ready.portRec 0).mgmtAdmit = true
    ∧ 8 ≤ ((ready.setQueue 0 .g (List.replicate 8 waiting)).port 0).gq.length ∧ ready.accepts 0 .g = true
    ∧ (⟨.command, 1, 0, 240, 9, 4, 0, 0, 0, 0⟩ : Header).ring > ready.settings.mgmtWriteRing := by decide +kernel

theorem witness_OperationRowsAreTakes : (asked ready .query 1 []).runs ⟨0, 5⟩ .identify
    ∧ ∀ e, (asked ready .query 1 []).judgeHead ≠ .run e .probe := by
  have h : (asked ready .query 1 []).judgeHead = .run ⟨0, 5⟩ .identify := by decide +kernel
  refine ⟨⟨by decide +kernel, h⟩, ?_⟩
  intro e he
  rw [h] at he
  cases he

/-- The head of `asked` with this kind, SVC and payload is judged so. -/
def heads (k : Kind) (svc : Svc) (pl : List Byte) : HeadJudgement := (asked ready k svc pl).judgeHead

/-- Each operation by its SVC, kind and length, and each ground of a refusal at its bound. -/
theorem witness_RequestNamesItsOperation :
    heads .query 1 [] = .run ⟨0, 5⟩ .identify ∧ heads .query 2 [0, 0, 0, 0] = .run ⟨0, 5⟩ .readTable
    ∧ heads .command 4 [0, 0, 0] = .run ⟨0, 5⟩ .clearTable ∧ heads .query 12 [0, 0, 0, 0, 0, 0, 0, 0] = .run ⟨0, 5⟩ .probe
    ∧ heads .command 13 [] = .run ⟨0, 5⟩ .restart
    ∧ heads .query 0 [] = .refused ⟨0, 5⟩ .badOp ∧ heads .command 14 [] = .refused ⟨0, 5⟩ .badOp
    ∧ heads .command 1 [] = .refused ⟨0, 5⟩ .badOp ∧ heads .query 13 [] = .refused ⟨0, 5⟩ .badOp
    ∧ heads .query 1 [0] = .refused ⟨0, 5⟩ .badLength ∧ heads .query 2 [0, 0, 0] = .refused ⟨0, 5⟩ .badLength
    ∧ heads .query 3 [1, 0] = .refused ⟨0, 5⟩ .badOp ∧ heads .command 3 [1] = .refused ⟨0, 5⟩ .badLength
    ∧ heads .command 3 [0, 0] = .refused ⟨0, 5⟩ .badTable ∧ heads .command 3 [6, 0] = .refused ⟨0, 5⟩ .badTable
    ∧ heads .command 3 [4, 0, 0, 0] = .refused ⟨0, 5⟩ .badLength ∧ heads .command 3 [4, 0, 0, 0, 0] = .run ⟨0, 5⟩ .writeQueue
    ∧ heads .command 3 (5 :: List.replicate 25 0) = .run ⟨0, 5⟩ .writeGateway
    ∧ (ready.portRec 0).mgmtAdmit = true ∧ ((ready.setQueue 0 .g (List.replicate 7 waiting)).port 0).gq.length < 8
    ∧ ((ready.modPort 0 (fun x => { x with state := .isolated })).port 0).state.inService = false := by decide +kernel

theorem witness_ManagementReplyIsDelivered :
    (execute .identify (asked ready .query 1 []).dropHead ((asked ready .query 1 []).request ⟨0, 5⟩)).owed = none
    ∧ (asked ready .query 1 []).dropHead.accepts 0 .g = true
    ∧ (execute .identify (asked ready .query 1 []).dropHead ((asked ready .query 1 []).request ⟨0, 5⟩)).payload ≠ []
    ∧ (execute .restart (asked ready .command 13 []).dropHead ((asked ready .command 13 []).request ⟨0, 5⟩)).payload = [] := by
  decide +kernel

/-- G of port 0 with one place left, and a call whose undeliverable claim waits to fill it. -/
def filling : State := claiming ((inCall ready .queued).setQueue 0 .g (List.replicate 7 waiting)) (.undeliverable 1 3 false)

/-- A delivery interleaved with the take fills G before the reply of an IDENTIFY, and before that of a RESTART. -/
theorem witness_ManagementReply_lost :
    (asked filling .query 1 []).judgeHead = .run ⟨0, 5⟩ .identify ∧ (asked filling .command 13 []).judgeHead = .run ⟨0, 5⟩ .restart
    ∧ (after (.managementTake ⟨false, [.undeliverable 1]⟩) (asked filling .query 1 [])).flagSet (.event .gwReplyLost) = true
    ∧ (after (.managementTake ⟨false, [.undeliverable 1]⟩) (asked filling .command 13 [])).mgmt.restart = .reported 0 := by
  decide +kernel

/-- The requests below run, with the payloads they list. -/
def asks (k : Kind) (svc : Svc) (op : Operation) (pl : List Byte) : Bool :=
  (asked ready k svc pl).judgeHead == .run ⟨0, 5⟩ op && ((asked ready k svc pl).request ⟨0, 5⟩).payload == pl
    && (asked ready k svc pl).resetAsserted == false

/-- A bad table code, the first index past the end, a count of 0, and the last rule. -/
theorem witness_ReadTableReturnsEntries :
    (asks .query 2 .readTable [6, 0, 0, 1] && asks .query 2 .readTable [1, 1, 0, 1] && asks .query 2 .readTable [1, 0, 255, 0]
      && asks .query 2 .readTable [1, 0, 255, 255]) = true
    ∧ TableName.ofCode 6 = none ∧ TableName.ofCode 1 = some .rule ∧ (halfAt [1, 1, 0, 1] 1).toNat = TableName.size .rule
    ∧ (halfAt [1, 0, 255, 255] 1).toNat + 1 = TableName.size .rule := by decide +kernel

theorem witness_ReadStateAndReadCallReport : (asks .query 9 .readCall [128] && asks .query 9 .readCall [127]) = true
    ∧ 127 < (byteAt [128] 0).toNat ∧ (127 : CallIx).val = (byteAt [127] 0).toNat := by decide +kernel

theorem witness_ReadEventsAndReadCountersReport :
    (asks .query 11 .readCounters [5, 0] && asks .query 11 .readCounters [4, 2] && asks .query 11 .readCounters [4, 0]
      && asks .query 11 .readCounters [3, 1] && asks .query 11 .readCounters [4, 1]) = true ∧ portByte 3 = byteAt [3, 1] 0
    ∧ (asked reporting .query 10 []).judgeHead = .run ⟨0, 5⟩ .readEvents ∧ (asked reporting .query 10 []).wires.triggers = [.event .short] := by
  decide +kernel

/-- A port past the last, each bad field at its first bad value, the GSN, and each outcome of a frame's judgement. -/
theorem witness_ProbeForecastsDecision :
    (asks .query 12 .probe [4, 9, 17, 0, 40, 0, 1, 2] && asks .query 12 .probe [3, 9, 17, 16, 0, 0, 1, 2]
      && asks .query 12 .probe [3, 9, 17, 0, 40, 4, 1, 2] && asks .query 12 .probe [3, 9, 17, 0, 40, 0, 4, 2]
      && asks .query 12 .probe [3, 9, 17, 0, 40, 0, 1, 49] && asks .query 12 .probe [3, 9, 240, 15, 255, 3, 3, 48]
      && asks .query 12 .probe [3, 9, 17, 15, 255, 3, 3, 48]) = true
    ∧ ¬ ((4095 : Half) < halfAt [3, 9, 17, 15, 255, 3, 3, 48] 3 ∨ (3 : Byte) < byteAt [3, 9, 17, 15, 255, 3, 3, 48] 5
      ∨ (3 : Byte) < byteAt [3, 9, 17, 15, 255, 3, 3, 48] 6 ∨ (48 : Byte) < byteAt [3, 9, 17, 15, 255, 3, 3, 48] 7)
    ∧ portByte 3 = byteAt [3, 9, 17, 15, 255, 3, 3, 48] 0 := by decide +kernel

theorem witness_WritesOfRulesAndQueueRecords :
    (asks .command 3 .writeRule ([1, 255] ++ openRule.image) && asks .command 3 .writeRule ([1, 255, 2] ++ openRule.image.tail)
      && asks .command 3 .writeQueue [4, 16, 1, 0, 0] && asks .command 3 .writeQueue [4, 15, 0, 0, 0]
      && asks .command 3 .writeQueue [4, 15, 65, 0, 0] && asks .command 3 .writeQueue [4, 15, 64, 16, 0]
      && asks .command 3 .writeQueue [4, 15, 64, 15, 255]) = true
    ∧ ruleImageOk openRule.image = true ∧ ruleImageOk (2 :: openRule.image.tail) = false := by decide +kernel

/-- Every bounded field of an image at its last good values is accepted, and at its first bad values refused. -/
def bounds (ok : List Byte → Bool) (img : List Byte) (good bad : List (Nat × Byte)) : Bool :=
  good.all (fun (k, v) => ok (img.set k v)) && bad.all (fun (k, v) => !ok (img.set k v))

theorem witness_ranges_rule : bounds ruleImageOk openRule.image
    [(0, 1), (5, 15), (7, 15), (9, 15), (9, 1), (10, 3), (11, 2), (12, 48), (13, 48), (13, 255), (14, 1), (15, 1), (16, 3), (17, 7),
      (17, 255), (18, 1), (21, 1), (22, 1)]
    [(0, 2), (5, 16), (7, 16), (9, 16), (9, 0), (10, 4), (11, 3), (12, 49), (13, 49), (13, 254), (14, 2), (15, 2), (16, 4), (17, 8),
      (17, 254), (18, 2), (21, 2), (22, 2)] = true := by decide +kernel

theorem witness_ranges_service : bounds serviceImageOk { openService with svcHi := 4095 }.image
    [(0, 1), (1, 254), (2, 15), (4, 15), (6, 2), (7, 3), (8, 1), (9, 3), (10, 48), (11, 255), (13, 127), (14, 15), (16, 12), (17, 1), (18, 1)]
    [(0, 2), (1, 255), (2, 16), (4, 16), (6, 3), (7, 4), (8, 2), (9, 4), (10, 49), (12, 0), (13, 128), (14, 16), (16, 13), (17, 2), (18, 2)]
      = true
    ∧ serviceImageOk { openService with svcLo := 256 }.image = false ∧ serviceImageOk { openService with svcLo := 255 }.image = true := by
  decide +kernel

theorem witness_ranges_port : bounds portImageOk (PortRec.reset true).image
    [(0, 3), (1, 1), (3, 1), (5, 1), (5, 240), (6, 240), (7, 239), (8, 1), (9, 1), (10, 15), (11, 1), (12, 2)]
    [(0, 4), (1, 2), (3, 2), (5, 0), (5, 241), (6, 241), (7, 240), (8, 0), (9, 0), (10, 16), (11, 2), (12, 3)] = true := by decide +kernel

/-- NOTICE_EN stands in bytes 9 to 16: its bits 52 and 15 belong to no flag. -/
theorem witness_ranges_gateway : bounds settingsImageOk ready.settings.image
    [(0, 254), (1, 1), (2, 1), (2, 16), (3, 3), (4, 3), (6, 3), (7, 15), (10, 15), (15, 127), (17, 3), (17, 255), (19, 15), (21, 1),
      (21, 32), (23, 1), (23, 128)]
    [(0, 255), (1, 2), (2, 0), (2, 17), (3, 4), (4, 4), (6, 4), (7, 16), (9, 1), (10, 16), (15, 128), (17, 4), (17, 254), (19, 16), (21, 0),
      (21, 33), (23, 0), (23, 129)] = true := by decide +kernel

/-- An index past the last, a bad image, a gate without a target, an overlap, and an entry that is written. -/
theorem witness_WritesOfServiceEntries :
    (asks .command 3 .writeService ([2, 128] ++ openService.image) && asks .command 3 .writeService ([2, 127, 2] ++ openService.image.tail)
      && asks .command 3 .writeService ([2, 127] ++ openGate.image) && asks .command 3 .writeService ([2, 127] ++ openService.image)) = true
    ∧ serviceImageOk (2 :: openService.image.tail) = false ∧ ServiceEntry.ofImage openGate.image = some openGate
    ∧ openGate.valid = true ∧ openGate.kind = .gate ∧ (ready.service openGate.target).valid = false
    ∧ (((serving openRule openService).service 0).valid = true ∧ openService.station = ((serving openRule openService).service 0).station
      ∧ openService.svcLo ≤ ((serving openRule openService).service 0).svcHi
      ∧ ((serving openRule openService).service 0).svcLo ≤ openService.svcHi)
    ∧ (∀ j, (ready.service j).valid = false) := by decide +kernel

/-- A port past the last, a bad image, marks that do not fit, a block that meets another, a moved ack window, a good record. -/
theorem witness_WritesOfPortRecords :
    (asks .command 3 .writePort ([3, 4] ++ (PortRec.reset true).image) && asks .command 3 .writePort ([3, 0, 4] ++ (PortRec.reset true).image.tail)
      && asks .command 3 .writePort ([3, 0] ++ PortRec.image { PortRec.reset true with resumeMark := 48 })
      && asks .command 3 .writePort ([3, 0] ++ PortRec.image { PortRec.reset true with ackWindow := 21 })
      && asks .command 3 .writePort ([3, 0] ++ (PortRec.reset true).image)) = true
    ∧ portImageOk (4 :: (PortRec.reset true).image.tail) = false
    ∧ ¬ (({ PortRec.reset true with resumeMark := 48 } : PortRec).holdMark ≠ 0
        → ({ PortRec.reset true with resumeMark := 48 } : PortRec).resumeMark < ({ PortRec.reset true with resumeMark := 48 } : PortRec).holdMark)
    ∧ (blocksMeet { PortRec.reset true with ruleStart := 255, ruleCount := 1 } { PortRec.reset true with ruleStart := 254, ruleCount := 2 }
        = true)
    ∧ (21 : Byte) ≠ (ready.portRec 0).ackWindow ∧ (ready.port 0).state = .listen ∧ (ready.port 1).state = .disabled := by decide +kernel

/-- A bad index, a bad image, a RESERVE the free count does not exceed, marks moved across the present counts, and a monitor
port that is left. -/
theorem witness_WritesOfGatewaySettings :
    (asks .command 3 .writeGateway ([5, 1] ++ ready.settings.image) && asks .command 3 .writeGateway ([5, 0, 255] ++ ready.settings.image.tail)
      && asks .command 3 .writeGateway ([5, 0] ++ ready.settings.image)) = true
    ∧ settingsImageOk (255 :: ready.settings.image.tail) = false
    ∧ Settings.ofImage ready.settings.image = some ready.settings
    ∧ ((5 : Byte) ≠ ({ ready with pool := poolOf 5 } : State).settings.reserve ∧ ({ ready with pool := poolOf 5 } : State).freeCount ≤ 5)
    ∧ (({ ready with pool := poolOf 33 } : State).settings.lowMark.toNat < ({ ready with pool := poolOf 33 } : State).freeCount
      ∧ ({ ready with pool := poolOf 33 } : State).freeCount ≤ 33)
    ∧ (({ ready with pool := poolOf 32 } : State).freeCount ≤ ({ ready with pool := poolOf 32 } : State).settings.lowMark.toNat
      ∧ 31 < ({ ready with pool := poolOf 32 } : State).freeCount)
    ∧ ((inCall ready .queued).recordsInUse < (inCall ready .queued).settings.highMark.toNat ∧ 1 ≤ (inCall ready .queued).recordsInUse)
    ∧ (monitored ready (some 3) 9).settings.monitorPort = some 3 := by decide +kernel

/-- A write that leaves the monitor port with one copy in M, held in buffer 5, which moves LOW_MARK across the free count too. -/
theorem witness_WritesOfGatewaySettings_leaves :
    let s := asked ((monitoring 1).modBuffer 6 (fun _ => ⟨1, .port 0, [], [], 0⟩)) .command 3
      ([5, 0] ++ Settings.image { ready.settings with lowMark := 254 })
    let x := execute .writeGateway s.dropHead (s.request ⟨0, 5⟩)
    x.state.queue 3 .m = [] ∧ (x.state.port 3).counters.txDropped = 1 ∧ x.state.settings.monitorPort = none
      ∧ x.state.flagSet (.rise .poolLow) = true ∧ (x.state.buffer 5).holds = 0 := by decide +kernel

theorem witness_ClearTableResetsRange :
    (asks .command 4 .clearTable [3, 0, 0] && asks .command 4 .clearTable [1, 1, 0] && asks .command 4 .clearTable [2, 0, 128]
      && asks .command 4 .clearTable [1, 0, 255] && asks .command 4 .clearTable [2, 127, 127]) = true := by decide +kernel

/-- A port past the last, a bad target, the arrival port itself, the state it has, a disabled port that skips CONFIG, and
transitions of each sort. -/
theorem witness_SetPortStateMakesTransition :
    (asks .command 6 .setPortState [4, 0] && asks .command 6 .setPortState [3, 4] && asks .command 6 .setPortState [0, 0]
      && asks .command 6 .setPortState [0, 2] && asks .command 6 .setPortState [3, 2] && asks .command 6 .setPortState [3, 1]
      && asks .command 6 .setPortState [0, 3]) = true
    ∧ portByte 0 = byteAt [0, 0] 0 ∧ portByte 3 = byteAt [3, 1] 0 ∧ PortState.config.code = byteAt [3, 1] 1
    ∧ PortState.forward.code = byteAt [0, 3] 1 ∧ (ready.port 0).state = .listen ∧ (ready.port 3).state = .disabled
    ∧ ((ready.modPort 3 (fun x => { x with state := .isolated })).port 3).state.inService = false
    ∧ (∀ d ∈ ready.wires.claims, d.isLeaving 3 = false) ∧ 96 ≤ ((scored ready 96).port 0).score := by decide +kernel

/-- Port 3 in LISTEN with its link UP, HOLDING, with a score of 96. -/
def busyPort : State := ready.modPort 3 (fun _ => { portIn .listen with ownHold := some 9, score := 96 })

/-- It leaves service, and comes back to be judged for own HOLDING at once. -/
theorem witness_SetPortState_leaves :
    (busyPort.port 3).ownHold ≠ none ∧ 96 ≤ (busyPort.port 3).score ∧ (busyPort.port 3).linkUp = true
    ∧ ((after (.setPortState plain) (asked busyPort .command 6 [3, 0])).wires.claims = [.portDown 3])
    ∧ (after (.setPortState plain) (asked busyPort .command 6 [3, 0])).flagSet (.fall (.holding 3)) = true
    ∧ (ready.modPort 3 (fun _ => portIn .config)).holdBegins 3 48 := by
  unfold State.holdBegins
  decide +kernel

/-- ABORT QUEUE of one entry releases its hold. -/
theorem witness_Abort_releases :
    [framed].filter (fun n => !n.inTransmission) = [framed]
    ∧ ((ready.modBuffer 6 (fun _ => ⟨1, .port 0, [], [], 0⟩)).setQueue 0 (.data 2) [{ framed with buffer := some 6 }]).releaseJudges (some 6) 0
    ∧ ((after (.abortQueue plain) (asked ((ready.modBuffer 6 (fun _ => ⟨1, .port 0, [], [], 0⟩)).setQueue 0 (.data 2)
      [{ framed with buffer := some 6 }]) .command 7 [0, 2])).buffer 6).holds = 0 :=
  ⟨by decide, ⟨6, rfl, by decide +kernel⟩, by decide +kernel⟩

theorem witness_AbortCancelAndRestart :
    (asks .command 7 .abortQueue [4, 0] && asks .command 7 .abortQueue [3, 6] && asks .command 7 .abortQueue [3, 5]
      && asks .command 8 .cancelCall [128, 0] && asks .command 8 .cancelCall [127, 2] && asks .command 8 .cancelCall [127, 1]
      && asks .command 8 .cancelCall [3, 0]) = true
    ∧ queueOf 5 = some .m ∧ queueOf 3 = some (.data 3) ∧ (ready.record 127).state = .free
    ∧ ((inCall ready .waiting).record 3).state ≠ .free
    ∧ (marked (inCall ready .waiting) 0 1).recordsInUse = (marked (inCall ready .waiting) 0 1).settings.highMark.toNat
    ∧ (openCall .waiting).reqPort = 0 ∧ (∀ i : CallIx, i.val = (byteAt [3, 1] 0).toNat → i = 3) := by decide +kernel

theorem witness_EncodingsRoundTrip :
    openRule.image.length = 23 ∧ RuleEntry.ofImage openRule.image = some openRule
    ∧ openGate.image.length = 19 ∧ ServiceEntry.ofImage openGate.image = some openGate
    ∧ (PortRec.reset true).image.length = 13 ∧ PortRec.ofImage (PortRec.reset true).image = some (PortRec.reset true)
    ∧ (QueueRec.image ⟨64, 4095⟩).length = 3 ∧ QueueRec.ofImage (QueueRec.image ⟨64, 4095⟩) = some ⟨64, 4095⟩
    ∧ ready.settings.image.length = 24 ∧ Settings.ofImage ready.settings.image = some ready.settings
    ∧ (hdr .query 17 40 48 50).length.toNat = (List.replicate 48 (7 : Byte)).length
    ∧ openRule.minLen ≤ 48 ∧ openRule.fixLen = none ∧ openRule.kinds.isEmpty = false := by decide +kernel

theorem witness_PoolIsAccountedFor :
    (after (.frameReceived 0 mgmtFrame) ready).freeCount < ready.freeCount := by decide +kernel

/-! ### States that meet the invariants, from which a step is taken -/

theorem witness_TablesStayConsistent : KeysDisjoint ready ∧ BlocksDisjoint ready ∧ TablesReadable ready := by
  refine ⟨?_, ?_, ?_, ?_, ?_, ?_, ?_⟩
  · intro i j _ h
    have e : ready.service i = ServiceEntry.reset := look_replicate _ i
    rw [e] at h
    cases h
  · unfold BlocksDisjoint
    decide +kernel
  · intro i
    have e : ready.rule i = RuleEntry.reset := look_replicate _ i
    rw [e]
    decide
  · intro i
    have e : ready.service i = ServiceEntry.reset := look_replicate _ i
    rw [e]
    decide
  · decide +kernel
  · decide +kernel
  · decide +kernel

theorem witness_ScoreKeepsTellingIsolation : ScoreTellsIsolation (scored (trying waiting) 254) := by
  unfold ScoreTellsIsolation
  decide +kernel

theorem witness_PortsOutOfServiceStayQuiet : OutOfServiceQuiet ready ∧ (ready.port 1).state.inService = false := by
  unfold OutOfServiceQuiet PortSt.quiet
  decide +kernel

theorem witness_FreeListStaysExact : FreeListExact ready := by
  have records : ∀ i, (ready.record i).state = .free := by
    intro i
    have e : ready.record i = CallRecord.reset := look_replicate _ i
    rw [e]
    rfl
  refine ⟨List.nodup_finRange 128, ?_⟩
  intro i
  exact ⟨fun _ => records i, fun _ => List.mem_finRange i⟩

theorem witness_HoldCountsStayHolders : HoldsAreHolders (asked ready .query 1 []) := by
  unfold HoldsAreHolders
  decide +kernel

theorem witness_OneFrameStaysInTransmission : OneFrameInTransmission (trying waiting)
    ∧ ((trying waiting).port 0).attempt ≠ none := by
  have busy : ((trying waiting).port 0).attempt = some ⟨.data 2, [], .window 7⟩ := by decide +kernel
  have idle : ∀ p : Port, p ≠ 0 → ((trying waiting).port p).attempt = none := by decide +kernel
  have still : ∀ p : Port, p ≠ 0 → ∀ e ∈ ((trying waiting).port p).allEntries, e.inTransmission = false := by decide +kernel
  refine ⟨?_, by simp [busy]⟩
  intro p
  unfold PortSt.oneInTransmission
  by_cases h : p = 0
  · subst h
    rw [busy]
    decide +kernel
  · rw [idle p h]
    exact still p h

theorem witness_FillsStayBounded : FillsBounded (asked ready .query 1 []) ∧ EventSetInPlaces (ready.setFlag (.rise .callsHigh)) := by
  unfold FillsBounded EventSetInPlaces
  decide +kernel

/-- A step is taken from a state that holds an attempt. -/
theorem witness_step : ∃ t, step { trying waiting with pending := [.ackReceived 0] } = .next t
    ∧ t.wires.claims = [.delivered 0 3] := ⟨_, rfl, by decide +kernel⟩

end Sys2Proof.Tests
end

section
/-! The rule stage (R3 to R13, R17, R162): the scan, the verdicts, and the statement about them. -/

namespace Sys2Proof.Machine
open Sys2Proof

/-! ### The first match of a block (R3, R5, R6) -/

/-- R5 as a proposition: what the fields of an entry ask of a frame. -/
def RuleHit (e : RuleEntry) (h : Header) (ring : RingNo) : Prop :=
  e.valid = true ∧ h.src &&& e.srcMask = e.src &&& e.srcMask ∧ h.dst &&& e.dstMask = e.dst &&& e.dstMask
    ∧ h.svc &&& e.svcMask = e.svc &&& e.svcMask ∧ ring ≤ e.maxRing
    ∧ ((h.kind = .query ∧ e.kinds.query = true) ∨ (h.kind = .command ∧ e.kinds.command = true)
      ∨ (h.kind = .reply ∧ e.kinds.reply = true) ∨ (h.kind = .notice ∧ e.kinds.notice = true))

theorem kindSet_has_iff (k : KindSet) (kind : Kind) : k.has kind = true ↔
    (kind = .query ∧ k.query = true) ∨ (kind = .command ∧ k.command = true)
      ∨ (kind = .reply ∧ k.reply = true) ∨ (kind = .notice ∧ k.notice = true) := by
  cases kind <;> simp [KindSet.has]

theorem ruleMatches_iff (e : RuleEntry) (h : Header) (ring : RingNo) : ruleMatches e h ring = true ↔ RuleHit e h ring := by
  simp only [ruleMatches, RuleHit, Bool.and_eq_true, beq_iff_eq, decide_eq_true_eq, kindSet_has_iff, and_assoc]
  tauto

theorem mem_blockIndices (r : PortRec) (i : RuleIx) : i ∈ blockIndices r ↔
    r.ruleStart.toNat ≤ i.val ∧ i.val < r.ruleStart.toNat + r.ruleCount.toNat := by
  simp [blockIndices]

theorem scan_eq_none_iff (s : State) (p : Port) (h : Header) (ring : RingNo) : s.scan p h ring = none ↔
    ∀ i ∈ blockIndices (s.portRec p), ¬ RuleHit (s.rule i) h ring := by
  simp only [State.scan, List.find?_eq_none, ruleMatches_iff]

/-- The indices of a block stand in rising order. -/
theorem pairwise_blockIndices (r : PortRec) : (blockIndices r).Pairwise (· < ·) :=
  (List.pairwise_lt_finRange 256).filter _

/-- In a list in rising order, `find?` gives the least member that passes. -/
theorem find?_eq_some_of_least {n : Nat} {l : List (Fin n)} {f : Fin n → Bool} {r : Fin n} (sorted : l.Pairwise (· < ·))
    (mem : r ∈ l) (hit : f r = true) (least : ∀ i ∈ l, i < r → f i = false) : l.find? f = some r := by
  induction l with
  | nil => simp at mem
  | cons i l ih =>
    obtain ⟨below, sorted⟩ := List.pairwise_cons.mp sorted
    rcases List.mem_cons.mp mem with rfl | mem
    · exact List.find?_cons_of_pos hit
    · rw [List.find?_cons_of_neg (by simp [least i (by simp) (below r mem)])]
      exact ih sorted mem (fun j hj => least j (by simp [hj]))

theorem scan_eq_some_of_first {s : State} {p : Port} {h : Header} {ring : RingNo} {r : RuleIx}
    (mem : r ∈ blockIndices (s.portRec p)) (hit : RuleHit (s.rule r) h ring)
    (first : ∀ i ∈ blockIndices (s.portRec p), i < r → ¬ RuleHit (s.rule i) h ring) : s.scan p h ring = some r :=
  find?_eq_some_of_least (pairwise_blockIndices _) mem ((ruleMatches_iff _ _ _).mpr hit)
    (fun i hi lt => by simpa [← ruleMatches_iff] using first i hi lt)

/-! ### What a decision makes of a frame before the service stage (R7 to R13, R17, R162) -/

theorem judgeArrival_unscanned {s : State} {p : Port} {h : Header}
    (c : (s.port p).state ≠ .forward ∨ h.dst = s.settings.gsn) : s.judgeArrival p h = .unscanned := if_pos c

theorem judgeArrival_noRule {s : State} {p : Port} {h : Header} (forward : (s.port p).state = .forward)
    (foreign : h.dst ≠ s.settings.gsn) (unmatched : s.scan p h (s.effectiveRing p h) = none) :
    s.judgeArrival p h = .noRule := by
  rw [State.judgeArrival, if_neg (by simp [forward, foreign]), unmatched]

theorem judgeArrival_matched {s : State} {p : Port} {h : Header} {r : RuleIx} (forward : (s.port p).state = .forward)
    (foreign : h.dst ≠ s.settings.gsn) (matched : s.scan p h (s.effectiveRing p h) = some r) :
    s.judgeArrival p h = s.ruleStage r h (s.effectiveRing p h) := by
  rw [State.judgeArrival, if_neg (by simp [forward, foreign]), matched]

section
variable {s : State} {r : RuleIx} {h : Header} (ring : RingNo)

theorem ruleStage_discard (v : (s.rule r).verdict = .discard) : s.ruleStage r h ring = .discard r := by
  simp [State.ruleStage, v]

theorem ruleStage_refuse (v : (s.rule r).verdict = .refuse) : s.ruleStage r h ring =
    if h.kind = .reply then .discard r else .refusal r .rule (detailOf r) ⟨none, none, none, none⟩ := by
  simp [State.ruleStage, v]

theorem ruleStage_short (v : (s.rule r).verdict = .forward) (short : h.length.toNat < (s.rule r).minLen.toNat) :
    s.ruleStage r h ring =
      if h.kind = .reply then .shortReply r else .refusal r .short (detailOf r) ⟨none, none, none, none⟩ := by
  simp [State.ruleStage, v, short]

theorem ruleStage_passed (v : (s.rule r).verdict = .forward) (long : (s.rule r).minLen.toNat ≤ h.length.toNat) :
    s.ruleStage r h ring =
      if h.kind = .reply then .matching r (outgoingLength (s.rule r) h.length.toNat)
      else s.serviceStage r h ring (outgoingLength (s.rule r) h.length.toNat) := by
  simp [State.ruleStage, v, Nat.not_lt.mpr long]

end

end Sys2Proof.Machine

open Sys2Proof Sys2Proof.Machine

/-- Settles O22: the scan finds the least index of the block that is hit, and the rule stage is read off its verdict. -/
theorem ruleStageSettlesFrame : Obligations.RuleStageSettlesFrame := by
  intro s p h rec_ ring inBlock hit unread
  refine ⟨judgeArrival_unscanned, fun forward foreign => ⟨fun unmatched => ?_, fun r block hits first => ?_⟩⟩
  · exact judgeArrival_noRule forward foreign
      ((scan_eq_none_iff s p h ring).mpr fun i hi => unmatched i ((mem_blockIndices rec_ i).mp hi))
  · intro e out
    have settled : s.judgeArrival p h = s.ruleStage r h ring := judgeArrival_matched forward foreign
      (scan_eq_some_of_first ((mem_blockIndices rec_ r).mpr block) hits
        fun i hi => first i ((mem_blockIndices rec_ i).mp hi))
    have length : outgoingLength (s.rule r) h.length.toNat = out := by
      simp only [out, e, outgoingLength]
      cases (s.rule r).fixLen <;> rfl
    rw [settled, ← length]
    refine ⟨ruleStage_discard ring, fun v k => ?_, fun v k => ?_, fun v l k => ?_, fun v l k => ?_, fun v l k => ?_,
      fun v l k => ?_⟩
    · rw [ruleStage_refuse ring v, if_pos k]
    · rw [ruleStage_refuse ring v, if_neg k]
      rfl
    · rw [ruleStage_short ring v l, if_pos k]
    · rw [ruleStage_short ring v l, if_neg k]
      rfl
    · rw [ruleStage_passed ring v l, if_pos k]
    · rw [ruleStage_passed ring v l, if_neg k]
end

section
/-! Writes of rule entries and QUEUE records (R2, R71, R147, R156, R180): images that read back, and the take of a WRITE TABLE. -/

namespace Sys2Proof.Machine
open Sys2Proof

/-! ### Fields of an image read back (R180) -/

theorem boolByte_beq_one {b : Byte} (h : b ≤ 1) : boolByte (b == 1) = b := by
  have : b = 0 ∨ b = 1 := by bv_omega
  rcases this with rfl | rfl <;> rfl

theorem setWidth_setWidth_of_lt {v w : Nat} {x : BitVec v} (h : x.toNat < 2 ^ w) : (x.setWidth w).setWidth v = x := by
  apply BitVec.eq_of_toNat_eq
  simp [BitVec.toNat_setWidth, Nat.mod_eq_of_lt h]

@[simp] theorem hiByte_ofBytes (h l : Byte) : hiByte (ofBytes h l) = h := BitVec.extractLsb'_append_eq_left

@[simp] theorem loByte_ofBytes (h l : Byte) : loByte (ofBytes h l) = l := BitVec.extractLsb'_append_eq_right

theorem be16_halfAt (bytes : List Byte) (i : Nat) : be16 (halfAt bytes i) = [byteAt bytes i, byteAt bytes (i + 1)] := by
  simp [be16, halfAt]

theorem be16_svcHalf {x : Half} (h : x ≤ 4095) : be16 (svcHalf (x.setWidth 12)) = be16 x := by
  rw [svcHalf, setWidth_setWidth_of_lt (by bv_omega)]

theorem kindSet_code_ofCode {b : Byte} (h : b ≤ 15) : (KindSet.ofCode b).code = b := by
  have all : ∀ k : Fin 16, (KindSet.ofCode (BitVec.ofNat 8 k)).code = BitVec.ofNat 8 k := by decide
  have small : b.toNat < 16 := by bv_omega
  simpa using all ⟨b.toNat, small⟩

theorem verdict_code_ofCode {b : Byte} (h : b ≤ 2) : (Verdict.ofCode b).code = b := by
  have : b = 0 ∨ b = 1 ∨ b = 2 := by bv_omega
  rcases this with rfl | rfl | rfl <;> rfl

theorem portByte_byteFin4 {b : Byte} (h : b ≤ 3) : portByte (byteFin4 b) = b := by
  have : b = 0 ∨ b = 1 ∨ b = 2 ∨ b = 3 := by bv_omega
  rcases this with rfl | rfl | rfl | rfl <;> rfl

theorem fixLen_reads_back (b : Byte) : (if b = 255 then none else some b : Option Byte).getD 255 = b := by
  split
  · exact Eq.symm ‹b = 255›
  · rfl

theorem urgency_reads_back {b : Byte} (h : b ≤ 7 ∨ b = 255) :
    ((if b = 255 then none else some (b.setWidth 3) : Option (BitVec 3)).map (·.setWidth 8)).getD 255 = b := by
  split
  · exact Eq.symm ‹b = 255›
  · have small : b.toNat < 2 ^ 3 := by
      have := h.resolve_right ‹_›
      bv_omega
    exact setWidth_setWidth_of_lt small

/-- A list is its bytes, read one by one. -/
theorem map_byteAt_range (bytes : List Byte) : (List.range bytes.length).map (byteAt bytes) = bytes := by
  apply List.ext_getElem <;> simp +contextual [byteAt]

/-! ### The images of rule entries and QUEUE records (R2, R71, R180) -/

/-- R2, R180: the ranges of the fields of a rule entry image. -/
def RuleImageInRange (img : List Byte) : Prop :=
  byteAt img 0 ≤ 1 ∧ halfAt img 5 ≤ 4095 ∧ halfAt img 7 ≤ 4095 ∧ byteAt img 9 ≤ 15 ∧ byteAt img 10 ≤ 3
    ∧ byteAt img 11 ≤ 2 ∧ byteAt img 12 ≤ 48 ∧ (byteAt img 13 ≤ 48 ∨ byteAt img 13 = 255) ∧ byteAt img 14 ≤ 1
    ∧ byteAt img 15 ≤ 1 ∧ byteAt img 16 ≤ 3 ∧ (byteAt img 17 ≤ 7 ∨ byteAt img 17 = 255) ∧ byteAt img 18 ≤ 1
    ∧ byteAt img 21 ≤ 1 ∧ byteAt img 22 ≤ 1 ∧ (byteAt img 0 = 1 → byteAt img 9 ≠ 0)

theorem ruleImageOk_iff (img : List Byte) : ruleImageOk img = true ↔ RuleImageInRange img := by
  have valid_or (a b : Byte) : a ≤ 1 → ((a = 0 ∨ b ≠ 0) ↔ (a = 1 → b ≠ 0)) := fun h => by
    have : a = 0 ∨ a = 1 := by bv_omega
    rcases this with rfl | rfl <;> simp
  simp only [ruleImageOk, RuleImageInRange, Bool.and_eq_true, Bool.or_eq_true, decide_eq_true_eq, beq_iff_eq, bne_iff_ne,
    and_assoc]
  refine and_congr_right fun valid => ?_
  simp only [valid_or _ _ valid]

theorem ruleEntry_ofImage_eq_none {img : List Byte} (h : ¬ RuleImageInRange img) : RuleEntry.ofImage img = none :=
  if_neg (by rwa [ruleImageOk_iff])

/-- R180: a rule entry read from an image of the table's length has that image. -/
theorem ruleEntry_ofImage_eq_some {img : List Byte} (len : img.length = 23) (h : RuleImageInRange img) :
    ∃ e, RuleEntry.ofImage img = some e ∧ e.image = img := by
  refine ⟨_, if_pos ((ruleImageOk_iff img).mpr h), ?_⟩
  obtain ⟨valid, svc, svcMask, kinds, maxRing, verdict, -, -, cmdCap, noticeCap, qclass, urgency, labelMode, mirror,
    oneShot, -⟩ := h
  have ring : (byteAt img 10).toNat < 2 ^ 2 := by bv_omega
  conv_rhs => rw [← map_byteAt_range img, len]
  simp only [RuleEntry.image, boolByte_beq_one, be16_svcHalf, be16_halfAt, kindSet_code_ofCode, setWidth_setWidth_of_lt,
    verdict_code_ofCode, fixLen_reads_back, portByte_byteFin4, urgency_reads_back, valid, svc, svcMask, kinds, ring, verdict,
    cmdCap, noticeCap, qclass, urgency, labelMode, mirror, oneShot]
  rfl

theorem queueRec_ofImage_eq_none {img : List Byte}
    (h : ¬ (1 ≤ byteAt img 0 ∧ byteAt img 0 ≤ 64 ∧ halfAt img 1 ≤ 4095)) : QueueRec.ofImage img = none := if_neg h

theorem queueRec_ofImage_eq_some {img : List Byte}
    (h : 1 ≤ byteAt img 0 ∧ byteAt img 0 ≤ 64 ∧ halfAt img 1 ≤ 4095) :
    QueueRec.ofImage img = some ⟨byteAt img 0, halfAt img 1⟩ := if_pos h

theorem byteAt_drop (bytes : List Byte) (k i : Nat) : byteAt (bytes.drop k) i = byteAt bytes (k + i) := by
  simp [byteAt]

/-! ### The take of a head that runs an operation (R145 to R149) -/

/-- An operation's own row answers the request with what the operation comes to. -/
theorem takeOf_of_runs {s : State} {e : MgmtEntry} {op : Operation} (h : s.runs e op) (o : Interleaving) :
    State.takeOf op o s
      = State.answer s.settings.gsn o (s.request e) (execute op s.dropHead (s.request e)) (op == .restart) := by
  simp [State.takeOf, State.manage, h.2]

theorem running_of_notReset {s : State} (h : s.resetAsserted = false) (f : State → State) : running f s = .next (f s) :=
  if_neg (by simp [h])

theorem exec_rowOf_of_runs {s : State} {e : MgmtEntry} {op : Operation} (h : s.runs e op) (o : Interleaving) :
    exec (rowOf op o) s
      = .next (State.answer s.settings.gsn o (s.request e) (execute op s.dropHead (s.request e)) (op == .restart)) := by
  rw [← takeOf_of_runs h]
  cases op <;> exact running_of_notReset h.1 _

/-- An entry that runs an operation asks for it by its header and payload (R147). -/
theorem operationOf_of_judgeEntry {s : State} {e e' : MgmtEntry} {op : Operation} (judged : s.judgeEntry e = .run e' op) :
    e = e' ∧ operationOf (s.request e).header (s.request e).payload = .inr op := by
  unfold State.judgeEntry at judged
  split at judged
  · contradiction
  · split at judged
    · contradiction
    · split at judged
      · contradiction
      · split at judged
        · contradiction
        · split at judged
          · contradiction
          · next asked =>
            obtain ⟨rfl, rfl⟩ := HeadJudgement.run.inj judged
            exact ⟨rfl, asked⟩

theorem operationOf_of_runs {s : State} {e : MgmtEntry} {op : Operation} (h : s.runs e op) :
    operationOf (s.request e).header (s.request e).payload = .inr op := by
  have judged := h.2
  unfold State.judgeHead at judged
  split at judged
  · split at judged
    · contradiction
    · obtain ⟨rfl, asked⟩ := operationOf_of_judgeEntry judged
      exact asked
  · contradiction

/-- R147, R180: what the length checks of a WRITE TABLE let through. -/
theorem writeOperation_eq_inr {payload : List Byte} {op : Operation} (h : writeOperation payload = .inr op) :
    ∃ t : TableName, op = t.write ∧ payload.length = 2 + t.imageLength := by
  unfold writeOperation at h
  split at h
  · contradiction
  · split at h
    · contradiction
    · next t _ =>
      split at h
      · next length => exact ⟨t, (Sum.inr.inj h).symm, length⟩
      · contradiction

theorem tableName_write_injective {t u : TableName} (h : t.write = u.write) : t = u := by
  cases t <;> cases u <;> cases h <;> rfl

/-- Whether an operation is one table's WRITE TABLE. -/
def Operation.isWrite : Operation → Bool
  | .writeRule | .writeService | .writePort | .writeQueue | .writeGateway => true
  | _ => false

theorem isWrite_write (t : TableName) : t.write.isWrite = true := by cases t <;> rfl

/-- R147: WRITE TABLE is no row of the plain operations. -/
theorem plainOperation_isWrite (svc : Svc) : (plainOperation svc).all (fun row => !row.1.isWrite) = true := by
  simp only [plainOperation, apply_ite (Option.all _)]
  simp [Operation.isWrite]

theorem plainOperation_ne_write (svc : Svc) (t : TableName) (k : Kind) (n : Nat) : plainOperation svc ≠ some (t.write, k, n) := by
  intro h
  have := plainOperation_isWrite svc
  simp [h, isWrite_write] at this

/-- R147, R180: a WRITE TABLE that runs brings an image of its table's length behind its two bytes. -/
theorem payload_length_of_runs_write {s : State} {e : MgmtEntry} {t : TableName} (h : s.runs e t.write) :
    (s.request e).payload.length = 2 + t.imageLength := by
  have asked := operationOf_of_runs h
  unfold operationOf at asked
  split at asked
  · split at asked
    · obtain ⟨u, same, len⟩ := writeOperation_eq_inr asked
      rw [len, tableName_write_injective same]
    · contradiction
  · split at asked
    · contradiction
    · next plain =>
      split at asked
      · contradiction
      · split at asked
        · exact absurd (Sum.inr.inj asked ▸ plain) (plainOperation_ne_write _ t _ _)
        · contradiction

/-! ### What the two writes do -/

theorem opWriteRule_refused {s : State} {q : Request} (h : ¬ RuleImageInRange (writtenImage q)) :
    opWriteRule s q = refusedWith s .badValue := by
  unfold opWriteRule
  rw [ruleEntry_ofImage_eq_none h]

theorem opWriteRule_done {s : State} {q : Request} {e : RuleEntry} (h : RuleEntry.ofImage (writtenImage q) = some e) :
    opWriteRule s q = doneEmpty (s.setRule (Fin.ofNat 256 (byteAt q.payload 1).toNat) e) := by
  unfold opWriteRule
  rw [h]

theorem opWriteRule_owed (s : State) (q : Request) : (opWriteRule s q).owed = none := by
  unfold opWriteRule
  split <;> rfl

theorem opWriteQueue_badIndex {s : State} {q : Request} (h : 15 < byteAt q.payload 1) :
    opWriteQueue s q = refusedWith s .badIndex := dif_neg (by bv_omega)

theorem opWriteQueue_badValue {s : State} {q : Request} (index : byteAt q.payload 1 ≤ 15)
    (h : QueueRec.ofImage (writtenImage q) = none) : opWriteQueue s q = refusedWith s .badValue := by
  have lt : (byteAt q.payload 1).toNat < 16 := by bv_omega
  simp [opWriteQueue, lt, h]

theorem opWriteQueue_done {s : State} {q : Request} {r : QueueRec} (lt : (byteAt q.payload 1).toNat < 16)
    (h : QueueRec.ofImage (writtenImage q) = some r) :
    opWriteQueue s q = doneEmpty (s.setQueueRec ⟨(byteAt q.payload 1).toNat, lt⟩ r) := by
  simp [opWriteQueue, lt, h]

theorem opWriteQueue_owed (s : State) (q : Request) : (opWriteQueue s q).owed = none := by
  unfold opWriteQueue
  split
  · split <;> rfl
  · rfl

theorem rule_setRule (s : State) (i j : RuleIx) (e : RuleEntry) :
    (s.setRule i e).rule j = if i = j then e else s.rule j := look_put _ _ _ _

theorem queueRec_setQueueRec (s : State) (i : Fin 16) (r : QueueRec) (p : Port) (d : DataQ) :
    (s.setQueueRec i r).queueRec p d = if p.val * 4 + d.val = i.val then r else s.queueRec p d := by
  simp only [State.queueRec, State.setQueueRec, State.setTables_tables, look_put, Fin.ext_iff, eq_comm]

end Sys2Proof.Machine

open Sys2Proof Sys2Proof.Machine

/-- Settles O45: each write is refused before it changes anything, or replaces its entry with the one its image reads as. -/
theorem writesOfRulesAndQueueRecords : Obligations.WritesOfRulesAndQueueRecords := by
  constructor
  · intro s o e runs pl img valid svc svcMask kinds maxRing verdict minLen fixLen cmdCap noticeCap qclass urgency labelMode mirror
      oneShot inRange
    refine ⟨opWriteRule s.dropHead (s.request e), exec_rowOf_of_runs runs o, opWriteRule_owed _ _, fun bad => ?_, fun good => ?_⟩
    · rw [opWriteRule_refused (q := s.request e) bad]
      exact ⟨rfl, rfl, rfl⟩
    · have len : img.length = 23 := by
        simp [img, pl, payload_length_of_runs_write (t := .rule) runs, TableName.imageLength]
      obtain ⟨r, read, image⟩ := ruleEntry_ofImage_eq_some len good
      rw [opWriteRule_done (q := s.request e) read]
      refine ⟨rfl, rfl, fun i hi => ?_, fun i hi => ?_, rfl, rfl, rfl, rfl, rfl⟩
      · have same : Fin.ofNat 256 (byteAt (s.request e).payload 1).toNat = i := by
          rw [← hi]
          exact Fin.ofNat_val_eq_self i
        have written : (s.dropHead.setRule (Fin.ofNat 256 (byteAt (s.request e).payload 1).toNat) r).rule i = r := by
          rw [rule_setRule, if_pos same]
        rw [doneEmpty, written]
        exact ⟨read.symm, image⟩
      · have other : Fin.ofNat 256 (byteAt (s.request e).payload 1).toNat ≠ i := fun same => hi (by
          rw [← same]
          exact Nat.mod_eq_of_lt (byteAt pl 1).isLt)
        exact (rule_setRule _ _ _ _).trans (if_neg other)
  · intro s o e runs pl depth interval
    have depthRead : byteAt (writtenImage (s.request e)) 0 = depth := byteAt_drop _ _ _
    refine ⟨opWriteQueue s.dropHead (s.request e), exec_rowOf_of_runs runs o, opWriteQueue_owed _ _, fun bad => ?_,
      fun index bad => ?_, fun index good => ?_⟩
    · rw [opWriteQueue_badIndex bad]
      exact ⟨rfl, rfl, rfl⟩
    · rw [opWriteQueue_badValue index (queueRec_ofImage_eq_none (depthRead ▸ bad))]
      exact ⟨rfl, rfl, rfl⟩
    · have lt : (byteAt (s.request e).payload 1).toNat < 16 := by
        have : byteAt (s.request e).payload 1 ≤ 15 := index
        bv_omega
      rw [opWriteQueue_done lt (queueRec_ofImage_eq_some (depthRead ▸ good)), depthRead]
      exact ⟨rfl, rfl, queueRec_setQueueRec _ _ _, rfl, rfl, rfl, rfl, rfl⟩
end

section
/-! The release of a hold in full (R94, R103, R105, R106, R165): what it does to own HOLDING and to the flags, in every state. -/

namespace Sys2Proof.Machine
open Sys2Proof

/-! ### Counts over a table with one entry replaced (R93, R95) -/

theorem countP_put {α : Type} {n : Nat} (v : Vector α n) (i : Fin n) (x : α) (f : α → Bool) :
    (put v i x).toList.countP f
      = v.toList.countP f - (if f (look v i) then 1 else 0) + (if f x then 1 else 0) := by
  rw [put, look, Vector.toList_set, List.countP_set]
  rfl

/-- The last hold on a buffer is given up. -/
def State.freed (s : State) (b : BufIx) : State := s.modBuffer b (fun x => { x with holds := 0 })

section
variable {s : State} {b : BufIx}

theorem freeCount_freed (last : (s.buffer b).holds = 1) : (s.freed b).freeCount = s.freeCount + 1 := by
  have last : (look s.pool b).holds = 1 := last
  rw [State.freeCount, State.freed, State.modBuffer_pool, countP_put]
  simp [State.freeCount, last]

theorem occupancy_freed {q : Port} (last : (s.buffer b).holds = 1) (origin : (s.buffer b).origin = .port q) :
    (s.freed b).occupancy q = s.occupancy q - 1 := by
  have last : (look s.pool b).holds = 1 := last
  have origin : (look s.pool b).origin = .port q := origin
  rw [State.occupancy, State.freed, State.modBuffer_pool, countP_put]
  simp [State.occupancy, last, origin]

/-! ### The branches of a release (R94) -/

theorem changeBuffer_freed (s : State) (b : BufIx) :
    s.changeBuffer b (fun x => { x with holds := 0 }) = (s.freed b).judge .poolLow (s.levelHolds .poolLow) := rfl

theorem release_of_notLast (h : (s.buffer b).holds ≠ 1) :
    s.release b = s ∨ s.release b = s.modBuffer b (fun x => { x with holds := x.holds - 1 }) := by
  unfold State.release
  rw [if_neg h]
  split
  · exact .inl rfl
  · exact .inr rfl

theorem release_of_lastGateway (last : (s.buffer b).holds = 1) (origin : (s.buffer b).origin = .gateway) :
    s.release b = (s.freed b).judge .poolLow (s.levelHolds .poolLow) := by
  simp [State.release, last, origin, changeBuffer_freed]

theorem release_of_lastPort {q : Port} (last : (s.buffer b).holds = 1) (origin : (s.buffer b).origin = .port q) :
    s.release b = ((s.freed b).judge .poolLow (s.levelHolds .poolLow)).judgeHold q := by
  simp [State.release, last, origin, changeBuffer_freed]

/-! ### POOL_LOW at a release (R164, R165) -/

/-- A judgement made after changes that set no flag. -/
theorem flagsBecome_judgeAfter {s u : State} (same : u.events = s.events) (l : Level) (was : Bool) :
    FlagsBecome s (u.judge l was)
      (fun f => (f = .rise l ∧ was = false ∧ u.levelHolds l = true) ∨ (f = .fall l ∧ was = true ∧ u.levelHolds l = false)) :=
  flagsBecome_congr (flagsBecome_trans (flagsBecome_ofEvents same) (flagsBecome_judge u l was)) (by simp)

/-- A buffer that comes free can only end POOL_LOW, and does so exactly at the mark. -/
theorem flagsBecome_freed (last : (s.buffer b).holds = 1) :
    FlagsBecome s ((s.freed b).judge .poolLow (s.levelHolds .poolLow))
      (fun f => f = .fall .poolLow ∧ s.freeCount = s.settings.lowMark.toNat) := by
  have low : (s.freed b).levelHolds .poolLow = decide (s.freeCount + 1 ≤ s.settings.lowMark.toNat) := by
    rw [State.levelHolds, freeCount_freed last]
    rfl
  refine flagsBecome_congr (flagsBecome_judgeAfter (u := s.freed b) rfl _ _) fun f => ?_
  rw [low]
  simp only [State.levelHolds, decide_eq_true_eq, decide_eq_false_iff_not]
  constructor
  · rintro (⟨-, above, below⟩ | ⟨rfl, below, above⟩)
    · omega
    · exact ⟨rfl, by omega⟩
  · rintro ⟨rfl, atMark⟩
    exact .inr ⟨rfl, by omega, by omega⟩

end

/-! ### The judgement of own HOLDING (R103, R105, R106) -/

theorem judgeHold_outOfService {s : State} {q : Port} (h : ¬ (s.port q).state.inService = true) : s.judgeHold q = s := if_neg h

/-- A judgement of one port leaves every other port as it is. -/
theorem port_judgeHold_ne {s : State} {q r : Port} (h : q ≠ r) : (s.judgeHold q).port r = s.port r := by
  have started : (s.startHold q).port r = s.port r := by
    rw [State.startHold, (onlyFlags_judge _ _ _).port]
    simp [State.pushControl, State.port_modPort, h]
  have ended : (s.endHold q).port r = s.port r := by
    rw [State.endHold, (onlyFlags_judge _ _ _).port]
    simp [State.pushControl, State.port_modPort, h]
  unfold State.judgeHold
  split
  · split
    · split
      · exact started
      · rfl
    · split
      · exact ended
      · rfl
  · rfl

theorem flagsBecome_startHold {s : State} {q : Port} (h : (s.port q).ownHold = none) :
    FlagsBecome s (s.startHold q) (· = .rise (.holding q)) := by
  unfold State.startHold
  refine flagsBecome_congr (flagsBecome_judgeAfter ?_ _ _) fun f => ?_
  · rfl
  simp [State.levelHolds, State.pushControl, h]

theorem flagsBecome_endHold {s : State} {q : Port} (h : (s.port q).ownHold ≠ none) :
    FlagsBecome s (s.endHold q) (· = .fall (.holding q)) := by
  unfold State.endHold
  refine flagsBecome_congr (flagsBecome_judgeAfter ?_ _ _) fun f => ?_
  · rfl
  simp [State.levelHolds, State.pushControl, Option.isSome_iff_ne_none, h]

section
variable {s : State} {q : Port} (service : (s.port q).state.inService = true)
include service

theorem judgeHold_of_begins (h : s.holdBegins q (s.occupancy q)) : s.judgeHold q = s.startHold q := by
  obtain ⟨idle, marked⟩ := h
  unfold State.judgeHold
  rw [if_pos service, idle]
  exact if_pos marked

theorem judgeHold_of_ends (h : s.holdEnds q (s.occupancy q)) : s.judgeHold q = s.endHold q := by
  obtain ⟨holding, drained⟩ := h
  obtain ⟨n, hn⟩ := Option.ne_none_iff_exists'.mp holding
  unfold State.judgeHold
  rw [if_pos service, hn]
  exact if_pos drained

theorem judgeHold_of_still (begins : ¬ s.holdBegins q (s.occupancy q)) (ends : ¬ s.holdEnds q (s.occupancy q)) :
    s.judgeHold q = s := by
  unfold State.judgeHold
  rw [if_pos service]
  match k : (s.port q).ownHold with
  | none => exact if_neg fun c => begins ⟨k, c⟩
  | some left => exact if_neg fun c => ends ⟨by simp [k], c⟩

/-- The flags that a judgement of own HOLDING sets on a port in service. -/
theorem flagsBecome_judgeHold : FlagsBecome s (s.judgeHold q)
    (fun f => (f = .rise (.holding q) ∧ s.holdBegins q (s.occupancy q))
      ∨ (f = .fall (.holding q) ∧ s.holdEnds q (s.occupancy q))) := by
  by_cases begins : s.holdBegins q (s.occupancy q)
  · have ends : ¬ s.holdEnds q (s.occupancy q) := fun e => e.1 begins.1
    rw [judgeHold_of_begins service begins]
    exact flagsBecome_congr (flagsBecome_startHold begins.1) fun f => by simp only [begins, ends, and_true, and_false, or_false]
  · by_cases ends : s.holdEnds q (s.occupancy q)
    · rw [judgeHold_of_ends service ends]
      exact flagsBecome_congr (flagsBecome_endHold ends.1) fun f => by simp only [begins, ends, and_true, and_false, false_or]
    · rw [judgeHold_of_still service begins ends]
      exact flagsBecome_congr (flagsBecome_refl s) fun f => by simp only [begins, ends, and_false, or_false]

end

/-! ### What a release reads (R94) -/

/-- The two states agree in all that the release of a hold and its judgements read. -/
structure HoldsAlike (s t : State) : Prop where
  tables : t.tables = s.tables
  pool : t.pool = s.pool
  state : ∀ q, (t.port q).state = (s.port q).state
  ownHold : ∀ q, (t.port q).ownHold = (s.port q).ownHold
  control : ∀ q, (t.port q).control = (s.port q).control

namespace HoldsAlike
variable {s t : State} (h : HoldsAlike s t)
include h

theorem buffer (b : BufIx) : t.buffer b = s.buffer b := by simp [State.buffer, h.pool]
theorem occupancy (q : Port) : t.occupancy q = s.occupancy q := by simp [State.occupancy, h.pool]
theorem freeCount : t.freeCount = s.freeCount := by simp [State.freeCount, h.pool]
theorem portRec (q : Port) : t.portRec q = s.portRec q := State.portRec_of_tables h.tables q

theorem trans {u : State} (k : HoldsAlike t u) : HoldsAlike s u where
  tables := k.tables.trans h.tables
  pool := k.pool.trans h.pool
  state := fun q => (k.state q).trans (h.state q)
  ownHold := fun q => (k.ownHold q).trans (h.ownHold q)
  control := fun q => (k.control q).trans (h.control q)

theorem holdBegins_iff (q : Port) (n : Nat) : t.holdBegins q n ↔ s.holdBegins q n := by
  simp only [State.holdBegins, h.ownHold, h.portRec]

theorem holdEnds_iff (q : Port) (n : Nat) : t.holdEnds q n ↔ s.holdEnds q n := by
  simp only [State.holdEnds, h.ownHold, h.portRec]

theorem releaseJudges_iff (b : Option BufIx) (q : Port) : t.releaseJudges b q ↔ s.releaseJudges b q := by
  simp only [State.releaseJudges, h.buffer, h.state]

theorem holdJudged {u : State} {q : Port} {before : List Control} {n : Nat} (k : HoldJudged t u q before n) :
    HoldJudged s u q before n := by
  simpa only [HoldJudged, h.holdBegins_iff, h.holdEnds_iff, h.ownHold, h.portRec] using k

theorem holdReleased {u : State} {b : Option BufIx} (k : HoldReleased t u b) : HoldReleased s u b := by
  obtain ⟨lowered, others, judged, unjudged⟩ := k
  simp only [h.buffer, h.releaseJudges_iff, h.ownHold, h.control, h.occupancy] at lowered others judged unjudged
  exact ⟨lowered, others, fun q hq => h.holdJudged (judged q hq), unjudged⟩

theorem releaseFlags_iff (b : Option BufIx) (f : Flag) : t.releaseFlags b f ↔ s.releaseFlags b f := by
  simp only [State.releaseFlags, State.lastHold, h.buffer, h.freeCount, State.settings_of_tables h.tables, h.releaseJudges_iff,
    h.holdBegins_iff, h.holdEnds_iff, h.occupancy]

end HoldsAlike

theorem holdsAlike_ofFlags {s t : State} (h : OnlyFlags s t) : HoldsAlike s t :=
  ⟨h.tables, h.pool, fun q => by rw [h.port], fun q => by rw [h.port], fun q => by rw [h.port]⟩

/-! ### A release in full (R94, R103, R105, R106, R165) -/

section
variable {s : State} {b : BufIx}

theorem not_releaseJudges_of_notLast (h : (s.buffer b).holds ≠ 1) (q : Port) : ¬ s.releaseJudges (some b) q := by
  rintro ⟨c, hc, last, -⟩
  exact h (Option.some.inj hc ▸ last)

theorem releaseJudges_iff {q r : Port} (last : (s.buffer b).holds = 1) (origin : (s.buffer b).origin = .port q) :
    s.releaseJudges (some b) r ↔ r = q ∧ (s.port q).state.inService = true := by
  constructor
  · rintro ⟨c, hc, -, arrival, service⟩
    obtain rfl := Option.some.inj hc
    obtain rfl := Origin.port.inj (origin.symm.trans arrival)
    exact ⟨rfl, service⟩
  · rintro ⟨rfl, service⟩
    exact ⟨b, rfl, last, origin, service⟩

theorem not_releaseJudges_of_gateway (origin : (s.buffer b).origin = .gateway) (q : Port) : ¬ s.releaseJudges (some b) q := by
  rintro ⟨c, hc, -, arrival, -⟩
  obtain rfl := Option.some.inj hc
  exact nomatch origin.symm.trans arrival

/-- A release as the ports see it: the port of the origin of a last hold is judged, if it is in service, and no other changes. -/
theorem holdJudged_release {q : Port} (h : s.releaseJudges (some b) q) :
    HoldJudged s (s.release b) q (s.port q).control (s.occupancy q - 1) := by
  obtain ⟨c, hc, last, origin, service⟩ := h
  obtain rfl := Option.some.inj hc
  have flags := onlyFlags_judge (s.freed b) .poolLow (s.levelHolds .poolLow)
  have judged := holdJudged_judgeHold (s := (s.freed b).judge .poolLow (s.levelHolds .poolLow)) (p := q)
    (by rw [flags.port]; exact service)
  rw [flags.occupancy, occupancy_freed last origin, flags.port] at judged
  rw [release_of_lastPort last origin]
  unfold HoldJudged State.holdBegins State.holdEnds at judged ⊢
  rw [flags.port, State.portRec_of_tables flags.tables] at judged
  exact judged

theorem port_release_of_not_judged {q : Port} (h : ¬ s.releaseJudges (some b) q) : (s.release b).port q = s.port q := by
  have flags := onlyFlags_judge (s.freed b) .poolLow (s.levelHolds .poolLow)
  by_cases last : (s.buffer b).holds = 1
  · cases origin : (s.buffer b).origin with
    | gateway => rw [release_of_lastGateway last origin, flags.port]; rfl
    | port r =>
      rw [release_of_lastPort last origin]
      rw [releaseJudges_iff last origin] at h
      by_cases same : r = q
      · rw [judgeHold_outOfService, flags.port]
        · rfl
        · rw [flags.port]
          exact fun service => h ⟨same.symm, service⟩
      · rw [port_judgeHold_ne same, flags.port]
        rfl
  · rcases release_of_notLast last with e | e
    · rw [e]
    · rw [e]
      rfl

theorem holdReleased_release (s : State) (b : BufIx) : HoldReleased s (s.release b) (some b) := by
  refine ⟨fun c hc => ?_, fun c hc => ?_, fun q => holdJudged_release, fun q hq => ?_⟩
  · simp [buffer_release, Option.some.inj hc]
  · rw [buffer_release, if_neg fun e => hc (congrArg some e)]
  · rw [port_release_of_not_judged hq]
    exact ⟨rfl, rfl⟩

/-- The flags that the release of a hold sets. -/
theorem flagsBecome_release (s : State) (b : BufIx) : FlagsBecome s (s.release b) (s.releaseFlags (some b)) := by
  by_cases last : (s.buffer b).holds = 1
  case neg =>
    have unset : FlagsBecome s (s.release b) (fun _ => False) := by
      rcases release_of_notLast last with e | e
      · exact flagsBecome_ofEvents (by rw [e])
      · exact flagsBecome_ofEvents (by rw [e]; rfl)
    refine flagsBecome_congr unset fun f => ?_
    simp [State.releaseFlags, State.lastHold, last, not_releaseJudges_of_notLast last]
  case pos =>
    have lastHold : s.lastHold (some b) := ⟨b, rfl, last⟩
    have freed := flagsBecome_freed last
    cases origin : (s.buffer b).origin with
    | gateway =>
      rw [release_of_lastGateway last origin]
      refine flagsBecome_congr freed fun f => ?_
      simp [State.releaseFlags, lastHold, not_releaseJudges_of_gateway origin]
    | port q =>
      have flags := onlyFlags_judge (s.freed b) .poolLow (s.levelHolds .poolLow)
      rw [release_of_lastPort last origin]
      by_cases service : (s.port q).state.inService = true
      · have judged := flagsBecome_judgeHold (s := (s.freed b).judge .poolLow (s.levelHolds .poolLow)) (q := q)
          (by rw [flags.port]; exact service)
        rw [flags.occupancy, occupancy_freed last origin] at judged
        refine flagsBecome_congr (flagsBecome_trans freed judged) fun f => ?_
        have begins : ∀ n, ((s.freed b).judge .poolLow (s.levelHolds .poolLow)).holdBegins q n ↔ s.holdBegins q n := fun n => by
          unfold State.holdBegins
          rw [flags.port, State.portRec_of_tables flags.tables]
          rfl
        have ends : ∀ n, ((s.freed b).judge .poolLow (s.levelHolds .poolLow)).holdEnds q n ↔ s.holdEnds q n := fun n => by
          unfold State.holdEnds
          rw [flags.port, State.portRec_of_tables flags.tables]
          rfl
        simp [State.releaseFlags, lastHold, releaseJudges_iff last origin, service, begins, ends]
      · rw [judgeHold_outOfService (by rw [flags.port]; exact service)]
        refine flagsBecome_congr freed fun f => ?_
        simp [State.releaseFlags, lastHold, releaseJudges_iff last origin, service]

end

end Sys2Proof.Machine
end

section
/-! The decision in its parts (R7, R18, R19): the frame taken up, the primary outcome, the mirror copy. -/

namespace Sys2Proof.Machine
open Sys2Proof

/-! ### The command DECISION (R7) -/

/-- The frame at the front of port p's awaiting ones is taken up, with bs left behind it. -/
def State.takesFront (s : State) (p : Port) (bs : List BufIx) : State := s.modPort p (fun x => { x with awaiting := bs })

/-- A view of a port that does not read its awaiting frames is kept as one of them is taken up. -/
theorem port_takesFront_eq {α : Type} (f : PortSt → α) (h : ∀ x bs, f { x with awaiting := bs } = f x) (s : State) (p q : Port)
    (bs : List BufIx) : f ((s.takesFront p bs).port q) = f (s.port q) := by
  rw [State.takesFront, State.port_modPort]
  split
  · next same => rw [h, same]
  · rfl

theorem state_takesFront (s : State) (p q : Port) (bs : List BufIx) :
    ((s.takesFront p bs).port q).state = (s.port q).state := port_takesFront_eq PortSt.state (fun _ _ => rfl) s p q bs

theorem queue_takesFront (s : State) (p q : Port) (r : QueueId) (bs : List BufIx) :
    (s.takesFront p bs).queue q r = s.queue q r := port_takesFront_eq (·.queue r) (fun _ _ => by cases r <;> rfl) s p q bs

theorem holdsAlike_takesFront (s : State) (p : Port) (bs : List BufIx) : HoldsAlike s (s.takesFront p bs) where
  tables := rfl
  pool := rfl
  state := fun q => state_takesFront s p q bs
  ownHold := fun q => port_takesFront_eq PortSt.ownHold (fun _ _ => rfl) s p q bs
  control := fun q => port_takesFront_eq PortSt.control (fun _ _ => rfl) s p q bs

/-- A decision reads the tables, the calls and the states of the ports, none of which change as the frame is taken up. -/
theorem judgeArrival_takesFront (s : State) (p q : Port) (bs : List BufIx) (h : Header) :
    (s.takesFront p bs).judgeArrival q h = s.judgeArrival q h := by
  have lastSteps : (s.takesFront p bs).lastSteps = s.lastSteps := by
    funext r h f
    unfold State.lastSteps
    rw [state_takesFront]
    rfl
  have serviceStage : (s.takesFront p bs).serviceStage = s.serviceStage := by
    funext r h ring len
    unfold State.serviceStage
    rw [lastSteps]
    rfl
  have ruleStage : (s.takesFront p bs).ruleStage = s.ruleStage := by
    funext r h ring
    unfold State.ruleStage
    rw [serviceStage]
    rfl
  unfold State.judgeArrival
  rw [state_takesFront, ruleStage]
  rfl

/-- R7: the decision on the frame at the front of those awaiting: its outcome is settled, and its own hold released at the end. -/
theorem exec_decision {s : State} {p : Port} {b : BufIx} {bs : List BufIx} (run : s.resetAsserted = false)
    (front : (s.port p).awaiting = b :: bs) : exec (.decision p) s =
      .next (((s.takesFront p bs).applySettled p b (Header.decode (s.buffer b).image)
        (s.judgeArrival p (Header.decode (s.buffer b).image))).release b) := by
  have taken : exec (.decision p) s = .next ((s.takesFront p bs).decideFrame p b) := by
    show running (fun s => s.decisionStep p) s = _
    rw [running_of_notReset run, State.decisionStep, front]
    rfl
  rw [taken, ← judgeArrival_takesFront s p p bs]
  rfl

/-! ### The primary outcome and the mirror copy behind it (R18, R19) -/

/-- The effects of a settled outcome before any mirror copy, with the outcome status that a copy would carry. -/
def State.primary (s : State) (p : Port) (b : BufIx) (h : Header) : Settled → State × Byte
  | .unscanned => (s.discarded, discardOutcome)
  | .noRule => ((s.raise (.event .noRule)).discarded, discardOutcome)
  | .discard _ => (s.discarded, discardOutcome)
  | .shortReply _ => ((s.raise (.event .short)).discarded, discardOutcome)
  | .refusal _ st detail _ => (s.refuse p h st detail, st.code)
  | .matching r len => s.matchReply p b h r len
  | .forward r f => if h.kind.isRequest then s.forwardRequest p b h r f else s.forwardNotice b h r f

theorem applySettled_matched {s : State} {p : Port} {b : BufIx} {h : Header} {x : Settled} {r : RuleIx}
    (matched : x.matchedRule = some r) :
    s.applySettled p b h x = (s.primary p b h x).1.mirrorCopy p b r (s.primary p b h x).2 := by
  cases x with
  | unscanned => exact nomatch matched
  | noRule => exact nomatch matched
  | forward r' f =>
    obtain rfl := Option.some.inj matched
    simp only [State.applySettled, State.primary]
    split <;> rfl
  | _ =>
    obtain rfl := Option.some.inj matched
    rfl

theorem State.queue_setQueue (s : State) (p r : Port) (q k : QueueId) (es : List QueueEntry) :
    (s.setQueue p q es).queue r k = if p = r ∧ q = k then es else s.queue r k := by
  unfold State.queue State.setQueue
  rw [State.port_modPort]
  by_cases port : p = r
  · subst port
    by_cases same : q = k
    · subst same
      simp
    · simp [same, queue_setQueue_ne _ _ same]
  · simp [port]

/-- R19: the monitor port takes a copy: a station is named, and M of the port accepts it. -/
def State.takesCopy (s : State) (m : Port) : Prop :=
  s.settings.monitorPort = some m ∧ s.settings.monitorStation ≠ Config.noStation ∧ s.accepts m .m = true

theorem mirrorCopy_of_off {s : State} {r : RuleIx} (off : (s.rule r).mirror = false) (p : Port) (b : BufIx) (o : Byte) :
    s.mirrorCopy p b r o = s := by
  simp [State.mirrorCopy, off]

/-- R18: MIRRORS rises with every copy, made or lost. -/
def State.countMirror (s : State) : State := s.modCount (fun c => { c with mirrors := c.mirrors + 1 })

/-- The state behind a copy that has joined M of port m. -/
def State.copied (s : State) (m p : Port) (b : BufIx) (r : RuleIx) (o : Byte) : State :=
  ((s.setQueue m .m (s.queue m .m ++ [s.mirrorEntry p b r o])).hold b).countMirror

theorem mirrorCopy_of_taken {s : State} {r : RuleIx} (on : (s.rule r).mirror = true) {m : Port} (taken : s.takesCopy m)
    (p : Port) (b : BufIx) (o : Byte) : s.mirrorCopy p b r o = s.copied m p b r o := by
  obtain ⟨monitor, station, accepts⟩ := taken
  simp only [State.mirrorCopy, on, if_true, State.mirrorDelivery, monitor, station, if_false, State.deliver, accepts]
  rfl

theorem mirrorCopy_of_lost {s : State} {r : RuleIx} (on : (s.rule r).mirror = true) (lost : ∀ m, ¬ s.takesCopy m)
    (p : Port) (b : BufIx) (o : Byte) : s.mirrorCopy p b r o = (s.raise (.event .mirrorLost)).countMirror := by
  have undelivered : s.mirrorDelivery p b r o = none := by
    unfold State.mirrorDelivery
    split
    · rfl
    · next m monitor =>
      split
      · rfl
      · next station => exact deliver_eq_none.mpr (by simpa using fun accepts => lost m ⟨monitor, station, accepts⟩)
  simp only [State.mirrorCopy, on, if_true, undelivered]
  rfl

/-- Everything the making of a mirror copy can come to. -/
theorem mirrorCopy_cases (s : State) (p : Port) (b : BufIx) (r : RuleIx) (o : Byte) :
    s.mirrorCopy p b r o = s ∨ (∃ m, s.mirrorCopy p b r o = s.copied m p b r o)
      ∨ s.mirrorCopy p b r o = (s.raise (.event .mirrorLost)).countMirror := by
  cases on : (s.rule r).mirror with
  | false => exact .inl (mirrorCopy_of_off on p b o)
  | true =>
    by_cases taken : ∃ m, s.takesCopy m
    · obtain ⟨m, taken⟩ := taken
      exact .inr (.inl ⟨m, mirrorCopy_of_taken on taken p b o⟩)
    · exact .inr (.inr (mirrorCopy_of_lost on (not_exists.mp taken) p b o))

end Sys2Proof.Machine
end

section
/-! Discards (R7, R8, R10, R12, R162): what they leave alone, and the statement about them. -/

namespace Sys2Proof.Machine
open Sys2Proof

/-! ### A discard answers nobody (R7, R8, R10, R12, R162) -/

/-- From s to t no sender was answered and no call touched: mirror copies, flags and own HOLDING apart,
nothing changed but the pool. -/
structure AnswersNobody (s t : State) : Prop where
  awaiting : ∀ q, (t.port q).awaiting = (s.port q).awaiting
  queue : ∀ q r, r ≠ .m → t.queue q r = s.queue q r
  calls : t.calls = s.calls
  claims : t.wires.claims = s.wires.claims
  capture : t.events.capture = s.events.capture
  discarded : t.events.counters.discarded = s.events.counters.discarded
  forwarded : t.events.counters.forwarded = s.events.counters.forwarded
  refused : t.events.counters.refused = s.events.counters.refused
  flagged : ∀ f, s.flagged f → t.flagged f

namespace AnswersNobody

theorem refl (s : State) : AnswersNobody s s :=
  ⟨fun _ => rfl, fun _ _ _ => rfl, rfl, rfl, rfl, rfl, rfl, rfl, fun _ h => h⟩

theorem trans {s t u : State} (h : AnswersNobody s t) (k : AnswersNobody t u) : AnswersNobody s u where
  awaiting := fun q => (k.awaiting q).trans (h.awaiting q)
  queue := fun q r m => (k.queue q r m).trans (h.queue q r m)
  calls := k.calls.trans h.calls
  claims := k.claims.trans h.claims
  capture := k.capture.trans h.capture
  discarded := k.discarded.trans h.discarded
  forwarded := k.forwarded.trans h.forwarded
  refused := k.refused.trans h.refused
  flagged := fun f x => k.flagged f (h.flagged f x)

theorem ofHolding {s t : State} (h : OnlyHolding s t) : AnswersNobody s t where
  awaiting := fun q => by rw [(h.ports q).1]
  queue := fun q r _ => h.queue q r
  calls := h.calls
  claims := h.claims
  capture := h.capture
  discarded := by rw [h.counters]
  forwarded := by rw [h.counters]
  refused := by rw [h.counters]
  flagged := h.flagged

theorem ofFlags {s t : State} (h : OnlyFlags s t) : AnswersNobody s t := ofHolding (.ofFlags h)

/-- Flags set before a discard instead of behind it. -/
theorem ofFlags_discarded {s t : State} (h : OnlyFlags s t) : AnswersNobody s.discarded t.discarded where
  awaiting := fun q => by rw [show t.discarded.port q = s.discarded.port q from h.port q]
  queue := fun q r _ => h.queue q r
  calls := h.calls
  claims := h.claims
  capture := h.capture
  discarded := by simp [State.discarded, h.counters]
  forwarded := by simp [State.discarded, h.counters]
  refused := by simp [State.discarded, h.counters]
  flagged := h.flagged

end AnswersNobody

theorem answersNobody_countMirror (s : State) : AnswersNobody s s.countMirror :=
  ⟨fun _ => rfl, fun _ _ _ => rfl, rfl, rfl, rfl, rfl, rfl, rfl, fun _ h => h⟩

theorem answersNobody_copied (s : State) (m p : Port) (b : BufIx) (r : RuleIx) (o : Byte) :
    AnswersNobody s (s.copied m p b r o) where
  awaiting := fun q => by
    show ((s.setQueue m .m _).port q).awaiting = _
    rw [State.setQueue, State.port_modPort]
    split
    · next same => rw [setQueue_awaiting, same]
    · rfl
  queue := fun q k notM => (State.queue_setQueue s m q .m k _).trans (if_neg fun same => notM same.2.symm)
  calls := rfl
  claims := rfl
  capture := rfl
  discarded := rfl
  forwarded := rfl
  refused := rfl
  flagged := fun _ h => h

theorem answersNobody_mirrorCopy (s : State) (p : Port) (b : BufIx) (r : RuleIx) (o : Byte) :
    AnswersNobody s (s.mirrorCopy p b r o) := by
  rcases mirrorCopy_cases s p b r o with e | ⟨m, e⟩ | e <;> rw [e]
  · exact .refl s
  · exact answersNobody_copied s m p b r o
  · exact (AnswersNobody.ofFlags (onlyFlags_raise s _)).trans (answersNobody_countMirror _)

/-- The outcomes that discard the arrived frame. -/
def Settled.discards (x : Settled) : Prop :=
  x = .unscanned ∨ x = .noRule ∨ (∃ r, x = .discard r) ∨ ∃ r, x = .shortReply r

theorem answersNobody_applySettled {x : Settled} (discards : x.discards) (s : State) (p : Port) (b : BufIx) (h : Header) :
    AnswersNobody s.discarded (s.applySettled p b h x) := by
  rcases discards with rfl | rfl | ⟨r, rfl⟩ | ⟨r, rfl⟩
  · exact .refl _
  · exact .ofFlags_discarded (onlyFlags_raise s _)
  · exact answersNobody_mirrorCopy _ p b r _
  · exact (AnswersNobody.ofFlags_discarded (onlyFlags_raise s _)).trans (answersNobody_mirrorCopy _ p b r _)

theorem flagged_applySettled_noRule (s : State) (p : Port) (b : BufIx) (h : Header) :
    (s.applySettled p b h .noRule).flagged (.event .noRule) := flagged_raise s _

theorem flagged_applySettled_shortReply (s : State) (p : Port) (b : BufIx) (h : Header) (r : RuleIx) :
    (s.applySettled p b h (.shortReply r)).flagged (.event .short) :=
  (answersNobody_mirrorCopy _ p b r _).flagged _ (flagged_raise s _)

/-! ### A discard without a matched rule (R7, R8, R162) -/

section
variable {x : Settled} (unmatched : x = .unscanned ∨ x = .noRule) (s : State) (p : Port) (b : BufIx) (h : Header)
include unmatched

theorem holdsAlike_applySettled : HoldsAlike s (s.applySettled p b h x) := by
  rcases unmatched with rfl | rfl
  · exact ⟨rfl, rfl, fun _ => rfl, fun _ => rfl, fun _ => rfl⟩
  · have alike := holdsAlike_ofFlags (onlyFlags_raise s (.event .noRule))
    exact ⟨alike.tables, alike.pool, alike.state, alike.ownHold, alike.control⟩

theorem flagsBecome_applySettled :
    FlagsBecome s (s.applySettled p b h x) (fun f => f = .event .noRule ∧ x = .noRule) := by
  rcases unmatched with rfl | rfl
  · exact flagsBecome_congr (flagsBecome_refl s) (by simp)
  · exact flagsBecome_congr (flagsBecome_raise s _) (by simp)

theorem mirrors_applySettled : (s.applySettled p b h x).events.counters.mirrors = s.events.counters.mirrors := by
  rcases unmatched with rfl | rfl
  · rfl
  · show (s.raise (.event .noRule)).events.counters.mirrors = _
    rw [(onlyFlags_raise s _).counters]

end

end Sys2Proof.Machine

open Sys2Proof Sys2Proof.Machine

/-- Settles O24: the effects of a discard, and behind them the release of the frame's own hold, each keep what answers a sender. -/
theorem decisionDiscards : Obligations.DecisionDiscards := by
  intro s p b bs run front x discards
  let s₀ := s.takesFront p bs
  let u := s₀.applySettled p b (Header.decode (s.buffer b).image) x
  have quiet : AnswersNobody s₀.discarded (u.release b) :=
    (answersNobody_applySettled discards s₀ p b _).trans (.ofHolding (onlyHolding_release u b))
  have kept := (onlyHolding_release u b).flagged
  refine ⟨u.release b, exec_decision run front, ?_, quiet.discarded, quiet.forwarded, quiet.refused, quiet.capture, quiet.calls,
    quiet.claims, fun q d => ?_, fun q => ?_, fun isNoRule => ?_, fun ⟨r, isShort⟩ => ?_, fun unmatched => ⟨?_, ?_, ?_⟩⟩
  · rw [quiet.awaiting p]
    show (s₀.port p).awaiting = bs
    simp [s₀, State.takesFront]
  · exact (quiet.queue q _ (by simp)).trans (queue_takesFront s p q _ bs)
  · exact (quiet.queue q _ (by simp)).trans (queue_takesFront s p q _ bs)
  · refine kept _ ?_
    simp only [u, isNoRule]
    exact flagged_applySettled_noRule _ _ _ _
  · refine kept _ ?_
    simp only [u, isShort]
    exact flagged_applySettled_shortReply _ _ _ _ _
  · exact ((holdsAlike_takesFront s p bs).trans (holdsAlike_applySettled unmatched s₀ p b _)).holdReleased
      (holdReleased_release u b)
  · have alike := (holdsAlike_takesFront s p bs).trans (holdsAlike_applySettled unmatched s₀ p b (Header.decode (s.buffer b).image))
    have flags := flagsBecome_trans (flagsBecome_applySettled unmatched s₀ p b (Header.decode (s.buffer b).image))
      (flagsBecome_release u b)
    exact flagsBecome_congr flags fun f => by rw [alike.releaseFlags_iff]
  · rw [(onlyHolding_release u b).counters]
    exact mirrors_applySettled unmatched s₀ p b _
end

section
/-! Mirror copies (R18 to R20): what a copy reads, that no primary outcome reaches it, and the statement about them. -/

namespace Sys2Proof.Machine
open Sys2Proof

/-! ### What a mirror copy reads (R19, R20) -/

/-- The two states agree in all that the making of a mirror copy reads and in what it changes: the tables, the states of the ports,
their M queues, what the buffers hold besides their hold counts, and the count of copies. -/
structure MonitorAlike (s t : State) : Prop where
  tables : t.tables = s.tables
  state : ∀ q, (t.port q).state = (s.port q).state
  mq : ∀ q, (t.port q).mq = (s.port q).mq
  payload : ∀ b, (t.buffer b).payload = (s.buffer b).payload
  arrivalTime : ∀ b, (t.buffer b).arrivalTime = (s.buffer b).arrivalTime
  mirrors : t.events.counters.mirrors = s.events.counters.mirrors

/-- Besides, no frame was counted as forwarded. -/
structure SparesMonitor (s t : State) : Prop extends MonitorAlike s t where
  forwarded : t.events.counters.forwarded = s.events.counters.forwarded

namespace MonitorAlike
variable {s t u : State} (h : MonitorAlike s t)
include h

theorem trans (k : MonitorAlike t u) : MonitorAlike s u where
  tables := k.tables.trans h.tables
  state := fun q => (k.state q).trans (h.state q)
  mq := fun q => (k.mq q).trans (h.mq q)
  payload := fun b => (k.payload b).trans (h.payload b)
  arrivalTime := fun b => (k.arrivalTime b).trans (h.arrivalTime b)
  mirrors := k.mirrors.trans h.mirrors

theorem takesCopy_iff (m : Port) : t.takesCopy m ↔ s.takesCopy m := by
  simp only [State.takesCopy, State.accepts, State.settings_of_tables h.tables, h.state, h.mq]

theorem mirrorEntry (p : Port) (b : BufIx) (r : RuleIx) (o : Byte) : t.mirrorEntry p b r o = s.mirrorEntry p b r o := by
  simp only [State.mirrorEntry, State.settings_of_tables h.tables, h.payload, h.arrivalTime]

theorem mirror (r : RuleIx) : (t.rule r).mirror = (s.rule r).mirror := by
  simp only [State.rule, h.tables]

end MonitorAlike

theorem monitorAlike_forwarded (s : State) : MonitorAlike s s.forwarded :=
  ⟨rfl, fun _ => rfl, fun _ => rfl, fun _ => rfl, fun _ => rfl, rfl⟩

namespace SparesMonitor

theorem refl (s : State) : SparesMonitor s s :=
  ⟨⟨rfl, fun _ => rfl, fun _ => rfl, fun _ => rfl, fun _ => rfl, rfl⟩, rfl⟩

theorem trans {s t u : State} (h : SparesMonitor s t) (k : SparesMonitor t u) : SparesMonitor s u :=
  ⟨h.toMonitorAlike.trans k.toMonitorAlike, k.forwarded.trans h.forwarded⟩

/-- `trans` with the later operation named first. -/
theorem before {s t u : State} (k : SparesMonitor t u) (h : SparesMonitor s t) : SparesMonitor s u := h.trans k

theorem ofFlags {s t : State} (h : OnlyFlags s t) : SparesMonitor s t where
  tables := h.tables
  state := fun q => by rw [h.port]
  mq := fun q => by rw [h.port]
  payload := fun b => by rw [h.buffer]
  arrivalTime := fun b => by rw [h.buffer]
  mirrors := by rw [h.counters]
  forwarded := by rw [h.counters]

/-- Changes that reach neither the tables, the ports, the pool nor these two counters. -/
theorem ofFields {s t : State} (tables : t.tables = s.tables) (ports : t.ports = s.ports) (pool : t.pool = s.pool)
    (mirrors : t.events.counters.mirrors = s.events.counters.mirrors)
    (forwarded : t.events.counters.forwarded = s.events.counters.forwarded) : SparesMonitor s t where
  tables := tables
  state := fun q => by rw [State.port, ports]; rfl
  mq := fun q => by rw [State.port, ports]; rfl
  payload := fun b => by rw [State.buffer, pool]; rfl
  arrivalTime := fun b => by rw [State.buffer, pool]; rfl
  mirrors := mirrors
  forwarded := forwarded

end SparesMonitor

/-! ### The primary delivery leaves the monitor port alone (R40, R41, R43, R57) -/

theorem mq_setQueue {q : QueueId} (h : q ≠ .m) (x : PortSt) (es : List QueueEntry) : (x.setQueue q es).mq = x.mq :=
  queue_setQueue_ne x es h

theorem sparesMonitor_setQueue (s : State) (p : Port) {q : QueueId} (h : q ≠ .m) (es : List QueueEntry) :
    SparesMonitor s (s.setQueue p q es) where
  tables := rfl
  state := fun r => by
    rw [State.setQueue, State.port_modPort]
    split
    · next same => rw [setQueue_state, same]
    · rfl
  mq := fun r => by
    rw [State.setQueue, State.port_modPort]
    split
    · next same => rw [mq_setQueue h, same]
    · rfl
  payload := fun _ => rfl
  arrivalTime := fun _ => rfl
  mirrors := rfl
  forwarded := rfl

/-- A change of a buffer's hold count. -/
theorem sparesMonitor_modBuffer (s : State) (b : BufIx) (f : Buffer → Buffer) (payload : ∀ x, (f x).payload = x.payload)
    (arrivalTime : ∀ x, (f x).arrivalTime = x.arrivalTime) : SparesMonitor s (s.modBuffer b f) where
  tables := rfl
  state := fun _ => rfl
  mq := fun _ => rfl
  payload := fun c => by
    rw [State.buffer_modBuffer]
    split
    · next same => rw [payload, same]
    · rfl
  arrivalTime := fun c => by
    rw [State.buffer_modBuffer]
    split
    · next same => rw [arrivalTime, same]
    · rfl
  mirrors := rfl
  forwarded := rfl

theorem sparesMonitor_holdOpt (s : State) (b : Option BufIx) : SparesMonitor s (s.holdOpt b) := by
  cases b with
  | none => exact .refl s
  | some b => exact sparesMonitor_modBuffer s b (fun x => { x with holds := x.holds + 1 }) (fun _ => rfl) (fun _ => rfl)

theorem sparesMonitor_deliver {s t : State} {p : Port} {q : QueueId} {e : QueueEntry} (h : q ≠ .m)
    (delivered : s.deliver p q e = some t) : SparesMonitor s t := by
  obtain ⟨-, rfl⟩ := deliver_eq_some.mp delivered
  exact (sparesMonitor_setQueue s p h _).trans (sparesMonitor_holdOpt _ _)

theorem sparesMonitor_raise (s : State) (f : Flag) : SparesMonitor s (s.raise f) := .ofFlags (onlyFlags_raise s f)

theorem sparesMonitor_discarded (s : State) : SparesMonitor s s.discarded := .ofFields rfl rfl rfl rfl rfl

theorem sparesMonitor_offerReply (s : State) (p : Port) (e : QueueEntry) : SparesMonitor s (s.offerReply p e) := by
  unfold State.offerReply
  split
  · next delivered => exact sparesMonitor_deliver (by simp) delivered
  · exact sparesMonitor_raise s _

theorem sparesMonitor_openRecord (s : State) (i : CallIx) (r : CallRecord) : SparesMonitor s (s.openRecord i r) :=
  (SparesMonitor.ofFlags (onlyFlags_judge _ _ _)).before (.ofFields rfl rfl rfl rfl rfl)

theorem sparesMonitor_freeRecord (s : State) (i : CallIx) : SparesMonitor s (s.freeRecord i) := by
  unfold State.freeRecord
  split
  · exact (SparesMonitor.ofFlags (onlyFlags_judge _ _ _)).before (.ofFields rfl rfl rfl rfl rfl)
  · exact .refl s

theorem sparesMonitor_withdrawIfQueued (s : State) (i : CallIx) : SparesMonitor s (s.withdrawIfQueued i) := by
  unfold State.withdrawIfQueued
  split
  · exact .ofFields rfl rfl rfl rfl rfl
  · exact .refl s

theorem sparesMonitor_raiseOpt (s : State) (e : Option EventFlag) : SparesMonitor s (s.raiseOpt e) := by
  cases e with
  | none => exact .refl s
  | some e => exact sparesMonitor_raise s _

theorem sparesMonitor_refuse (s : State) (p : Port) (h : Header) (st : Status) (d : Half) :
    SparesMonitor s (s.refuse p h st d) := by
  have told : SparesMonitor s (((s.setCapture ⟨p, h.src, h.dst, h.svc, h.kind, st, d⟩).modCount
      (fun c => { c with refused := c.refused + 1 })).raiseOpt (refusalFlag st)) :=
    (sparesMonitor_raiseOpt _ _).before (.ofFields rfl rfl rfl rfl rfl)
  unfold State.refuse
  dsimp only
  split
  · exact told.trans (sparesMonitor_offerReply _ _ _)
  · exact told

/-! ### The outcome of a primary delivery (R18) -/

/-- A delivery either succeeds, is counted as forwarded and has outcome 0, or comes to the outcome `lost` and is not counted. -/
def Offered (s : State) (lost : Byte) (x : State × Byte) : Prop :=
  ∃ u, SparesMonitor s u ∧ (x = (u.forwarded, 0) ∨ x = (u, lost))

theorem Offered.after {s t : State} {lost : Byte} {x : State × Byte} (h : Offered t lost x) (k : SparesMonitor s t) :
    Offered s lost x := by
  obtain ⟨u, spared, outcome⟩ := h
  exact ⟨u, k.trans spared, outcome⟩

theorem Offered.monitorAlike {s : State} {lost : Byte} {x : State × Byte} (h : Offered s lost x) : MonitorAlike s x.1 := by
  obtain ⟨u, spared, rfl | rfl⟩ := h
  · exact spared.toMonitorAlike.trans (monitorAlike_forwarded u)
  · exact spared.toMonitorAlike

theorem Offered.outcome {s : State} {lost : Byte} {x : State × Byte} (h : Offered s lost x) :
    (x.2 = 0 ∧ x.1.events.counters.forwarded = s.events.counters.forwarded + 1)
      ∨ (x.2 = lost ∧ x.1.events.counters.forwarded = s.events.counters.forwarded) := by
  obtain ⟨u, spared, rfl | rfl⟩ := h
  · exact .inl ⟨rfl, congrArg (· + 1) spared.forwarded⟩
  · exact .inr ⟨rfl, spared.forwarded⟩

theorem offered_forwardRequest {s : State} (room : s.calls.freeList ≠ []) (p : Port) (b : BufIx) (h : Header) (r : RuleIx)
    (f : Forwarding) : Offered s Status.queueFull.code (s.forwardRequest p b h r f) := by
  unfold State.forwardRequest
  split
  · contradiction
  · next i _ _ =>
    have opened := sparesMonitor_openRecord s i (s.openedRecord p h f)
    dsimp only
    split
    · next delivered => exact ⟨_, opened.trans (sparesMonitor_deliver (by simp) delivered), .inl rfl⟩
    · exact ⟨_, opened.trans ((sparesMonitor_freeRecord _ i).trans (sparesMonitor_offerReply _ _ _)), .inr rfl⟩

theorem offered_forwardNotice (s : State) (b : BufIx) (h : Header) (r : RuleIx) (f : Forwarding) :
    Offered s discardOutcome (s.forwardNotice b h r f) := by
  unfold State.forwardNotice
  split
  · next delivered => exact ⟨_, sparesMonitor_deliver (by simp) delivered, .inl rfl⟩
  · exact ⟨_, sparesMonitor_discarded s, .inr rfl⟩

/-- A flag and a discard in place of a delivery. -/
theorem offered_raise_discarded (s : State) (f : Flag) : Offered s discardOutcome ((s.raise f).discarded, discardOutcome) :=
  ⟨_, (sparesMonitor_raise s f).trans (sparesMonitor_discarded _), .inr rfl⟩

theorem offered_deliverReply (s : State) (b : BufIx) (h : Header) (r : RuleIx) (c : CallRecord) (len : Nat) :
    Offered s discardOutcome (s.deliverReply b h r c len) := by
  unfold State.deliverReply
  split
  · next delivered => exact ⟨_, sparesMonitor_deliver (by simp) delivered, .inl rfl⟩
  · exact offered_raise_discarded s _

theorem offered_matchReply (s : State) (p : Port) (b : BufIx) (h : Header) (r : RuleIx) (len : Nat) :
    Offered s discardOutcome (s.matchReply p b h r len) := by
  unfold State.matchReply
  split
  · exact offered_raise_discarded s _
  · next i _ =>
    split
    · exact (offered_deliverReply _ b h r _ len).after
        ((sparesMonitor_withdrawIfQueued s i).trans (sparesMonitor_freeRecord _ i))
    · exact offered_raise_discarded s _

/-! ### Step 10 has found a record for a request that is forwarded (R28, R39) -/

theorem freeList_of_lastSteps {s : State} {r r' : RuleIx} {h : Header} {f f' : Forwarding}
    (settled : s.lastSteps r h f = .forward r' f') (request : h.kind.isRequest = true) : s.calls.freeList ≠ [] := by
  intro full
  unfold State.lastSteps at settled
  rw [if_pos (show _ ∧ _ from ⟨request, full⟩)] at settled
  split at settled
  · contradiction
  · split at settled <;> contradiction

theorem freeList_of_serviceStage {s : State} {r r' : RuleIx} {h : Header} {ring : RingNo} {len : Nat} {f : Forwarding}
    (settled : s.serviceStage r h ring len = .forward r' f) (request : h.kind.isRequest = true) : s.calls.freeList ≠ [] := by
  unfold State.serviceStage at settled
  split at settled
  · contradiction
  · split at settled
    · contradiction
    · split at settled
      · contradiction
      · split at settled
        · split at settled
          · contradiction
          · exact freeList_of_lastSteps settled request
        · contradiction

theorem freeList_of_ruleStage {s : State} {r r' : RuleIx} {h : Header} {ring : RingNo} {f : Forwarding}
    (settled : s.ruleStage r h ring = .forward r' f) (request : h.kind.isRequest = true) : s.calls.freeList ≠ [] := by
  unfold State.ruleStage at settled
  split at settled
  · contradiction
  · split at settled <;> contradiction
  · split at settled
    · split at settled <;> contradiction
    · split at settled
      · contradiction
      · exact freeList_of_serviceStage settled request

theorem freeList_of_judgeArrival {s : State} {p : Port} {h : Header} {r : RuleIx} {f : Forwarding}
    (settled : s.judgeArrival p h = .forward r f) (request : h.kind.isRequest = true) : s.calls.freeList ≠ [] := by
  unfold State.judgeArrival at settled
  split at settled
  · contradiction
  · split at settled
    · contradiction
    · exact freeList_of_ruleStage settled request

/-! ### The primary outcome of each settled form (R18) -/

section
variable {s : State} {p : Port} {b : BufIx} {h : Header}

theorem offered_primary_matching (r : RuleIx) (len : Nat) :
    Offered s discardOutcome (s.primary p b h (.matching r len)) := offered_matchReply s p b h r len

theorem offered_primary_request {r : RuleIx} {f : Forwarding} (request : h.kind.isRequest = true) (room : s.calls.freeList ≠ []) :
    Offered s Status.queueFull.code (s.primary p b h (.forward r f)) := by
  rw [State.primary, if_pos request]
  exact offered_forwardRequest room p b h r f

theorem offered_primary_other {r : RuleIx} {f : Forwarding} (other : ¬ h.kind.isRequest = true) :
    Offered s discardOutcome (s.primary p b h (.forward r f)) := by
  rw [State.primary, if_neg other]
  exact offered_forwardNotice s b h r f

/-- No primary outcome reaches what a mirror copy reads. -/
theorem monitorAlike_primary (x : Settled)
    (room : ∀ r f, x = .forward r f → h.kind.isRequest = true → s.calls.freeList ≠ []) :
    MonitorAlike s (s.primary p b h x).1 := by
  cases x with
  | unscanned => exact (sparesMonitor_discarded s).toMonitorAlike
  | noRule => exact (offered_raise_discarded s _).monitorAlike
  | discard r => exact (sparesMonitor_discarded s).toMonitorAlike
  | shortReply r => exact (offered_raise_discarded s _).monitorAlike
  | refusal r st d g => exact (sparesMonitor_refuse s p h st d).toMonitorAlike
  | matching r len => exact (offered_primary_matching r len).monitorAlike
  | forward r f =>
    by_cases request : h.kind.isRequest = true
    · exact (offered_primary_request request (room r f rfl request)).monitorAlike
    · exact (offered_primary_other request).monitorAlike

end

/-! ### What the copy itself comes to (R18, R19) -/

theorem queue_m_copied (s : State) (m p : Port) (b : BufIx) (r : RuleIx) (o : Byte) :
    (s.copied m p b r o).queue m .m = s.queue m .m ++ [s.mirrorEntry p b r o] :=
  (State.queue_setQueue s m m .m .m _).trans (if_pos ⟨rfl, rfl⟩)

theorem mirrors_mirrorCopy {s : State} {r : RuleIx} (on : (s.rule r).mirror = true) (p : Port) (b : BufIx) (o : Byte) :
    (s.mirrorCopy p b r o).events.counters.mirrors = s.events.counters.mirrors + 1 := by
  by_cases taken : ∃ m, s.takesCopy m
  · obtain ⟨m, taken⟩ := taken
    rw [mirrorCopy_of_taken on taken]
    rfl
  · rw [mirrorCopy_of_lost on (not_exists.mp taken)]
    show (s.raise _).events.counters.mirrors + 1 = _
    rw [(onlyFlags_raise s _).counters]

theorem monitorAlike_takesFront (s : State) (p : Port) (bs : List BufIx) : MonitorAlike s (s.takesFront p bs) where
  tables := rfl
  state := fun q => state_takesFront s p q bs
  mq := fun q => queue_takesFront s p q .m bs
  payload := fun _ => rfl
  arrivalTime := fun _ => rfl
  mirrors := rfl

end Sys2Proof.Machine

open Sys2Proof Sys2Proof.Machine

/-- Settles O30: the primary outcome reaches nothing that the copy reads, so the copy is the one the arrival state gives, made with
the outcome that the primary delivery came to. -/
theorem mirrorCopyFollowsOutcome : Obligations.MirrorCopyFollowsOutcome := by
  intro s p b bs r run front h x g matched
  let s₀ := s.takesFront p bs
  let u := s₀.primary p b h x
  let v := u.1.mirrorCopy p b r u.2
  have taken : exec (.decision p) s = .next (v.release b) := by
    rw [exec_decision run front, applySettled_matched matched]
  have room : ∀ r f, x = .forward r f → h.kind.isRequest = true → s₀.calls.freeList ≠ [] :=
    fun r f settled request => freeList_of_judgeArrival (s := s) settled request
  have alike : MonitorAlike s u.1 := (monitorAlike_takesFront s p bs).trans (monitorAlike_primary x room)
  have released := onlyHolding_release v b
  refine ⟨fun off => ⟨_, taken, ?_, fun q => ?_⟩, fun on => ⟨_, taken, ?_, fun m monitor station accepts => ?_, fun lost => ?_⟩⟩
  · rw [released.counters, show v = u.1 from mirrorCopy_of_off ((alike.mirror r).trans off) p b u.2]
    exact alike.mirrors
  · rw [released.queue, show v = u.1 from mirrorCopy_of_off ((alike.mirror r).trans off) p b u.2]
    exact alike.mq q
  · rw [released.counters, show v.events.counters.mirrors = _ from mirrors_mirrorCopy ((alike.mirror r).trans on) p b u.2,
      alike.mirrors]
  · have copied : v = u.1.copied m p b r u.2 :=
      mirrorCopy_of_taken ((alike.mirror r).trans on) ((alike.takesCopy_iff m).mpr ⟨monitor, station, accepts⟩) p b u.2
    have counted : (v.release b).events.counters.forwarded = u.1.events.counters.forwarded :=
      (answersNobody_mirrorCopy u.1 p b r u.2).forwarded ▸ congrArg GatewayCounters.forwarded released.counters
    refine ⟨u.2, ?_, fun r' st d gr settled => ?_, fun settled => ?_, fun ⟨len, settled⟩ => ?_, fun f settled request => ?_,
      fun f settled notice => ?_⟩
    · rw [released.queue, copied, queue_m_copied, alike.mirrorEntry]
      exact congrArg (· ++ _) (alike.mq m)
    · simp only [u, settled]
      rfl
    · rcases settled with settled | settled <;> (simp only [u, settled]; rfl)
    · rw [counted]
      simp only [u, settled]
      exact (offered_primary_matching r len).outcome
    · rw [counted]
      simp only [u, settled]
      exact (offered_primary_request request (room r f settled request)).outcome
    · rw [counted]
      simp only [u, settled]
      exact (offered_primary_other (by simp [notice, Kind.isRequest])).outcome
  · have noneTakes : ∀ m, ¬ u.1.takesCopy m := fun m copy => by
      obtain ⟨monitor, station, accepts⟩ := (alike.takesCopy_iff m).mp copy
      rcases lost m monitor with unnamed | full
      · exact station unnamed
      · simp [full] at accepts
    have raised : v = (u.1.raise (.event .mirrorLost)).countMirror :=
      mirrorCopy_of_lost ((alike.mirror r).trans on) noneTakes p b u.2
    refine ⟨released.flagged _ ?_, fun q => ?_⟩
    · rw [raised]
      exact flagged_raise u.1 _
    · rw [released.queue, raised]
      exact ((onlyFlags_raise u.1 _).queue q .m).trans (alike.mq q)
end

section
/-! Entry images read back (R24, R140, R161, R180): an image that a WRITE TABLE brings is the image of the entry it is read as. -/

namespace Sys2Proof.Machine
open Sys2Proof

/-! ### Service entries (R24, R180) -/

theorem serviceKind_code_ofCode {b : Byte} (h : b ≤ 2) : (ServiceKind.ofCode b).code = b := by
  have : b = 0 ∨ b = 1 ∨ b = 2 := by bv_omega
  rcases this with rfl | rfl | rfl <;> rfl

theorem natByte_ofNat128 {b : Byte} (h : b ≤ 127) : natByte (Fin.ofNat 128 b.toNat).val = b := by
  have small : b.toNat < 128 := by bv_omega
  simp [natByte, Fin.ofNat, Nat.mod_eq_of_lt small]

/-- R24: the ranges of the fields of a service entry image. -/
def ServiceImageInRange (img : List Byte) : Prop :=
  byteAt img 0 ≤ 1 ∧ byteAt img 1 ≤ 254 ∧ halfAt img 2 ≤ 4095 ∧ halfAt img 4 ≤ 4095 ∧ halfAt img 2 ≤ halfAt img 4
    ∧ byteAt img 6 ≤ 2 ∧ byteAt img 7 ≤ 3 ∧ byteAt img 8 ≤ 1 ∧ byteAt img 9 ≤ 3 ∧ byteAt img 10 ≤ 48 ∧ halfAt img 11 ≠ 0
    ∧ byteAt img 13 ≤ 127 ∧ halfAt img 14 ≤ 4095 ∧ byteAt img 16 ≤ 12 ∧ byteAt img 17 ≤ 1 ∧ byteAt img 18 ≤ 1

theorem serviceImageOk_iff (img : List Byte) : serviceImageOk img = true ↔ ServiceImageInRange img := by
  simp only [serviceImageOk, ServiceImageInRange, Bool.and_eq_true, decide_eq_true_eq, bne_iff_ne, and_assoc, ne_eq]

theorem serviceEntry_ofImage_eq_none {img : List Byte} (h : ¬ ServiceImageInRange img) : ServiceEntry.ofImage img = none :=
  if_neg (by rwa [serviceImageOk_iff])

/-- R180: a service entry read from an image of the table's length has that image. -/
theorem serviceEntry_ofImage_eq_some {img : List Byte} (len : img.length = 19) (h : ServiceImageInRange img) :
    ∃ e, ServiceEntry.ofImage img = some e ∧ e.image = img := by
  refine ⟨_, if_pos ((serviceImageOk_iff img).mpr h), ?_⟩
  obtain ⟨valid, -, svcLo, svcHi, -, kind, ring, present, port, -, -, target, entrySvc, -, cmdOk, noticeOk⟩ := h
  have ring : (byteAt img 7).toNat < 2 ^ 2 := by bv_omega
  conv_rhs => rw [← map_byteAt_range img, len]
  simp only [ServiceEntry.image, boolByte_beq_one, be16_svcHalf, be16_halfAt, serviceKind_code_ofCode, setWidth_setWidth_of_lt,
    portByte_byteFin4, natByte_ofNat128, valid, svcLo, svcHi, kind, ring, present, port, target, entrySvc, cmdOk, noticeOk]
  rfl

/-! ### PORT records and the GATEWAY record (R140, R161, R180) -/

theorem arb_code_ofCode {b : Byte} (h : b ≤ 1) : (Arb.ofCode b).code = b := by
  have : b = 0 ∨ b = 1 := by bv_omega
  rcases this with rfl | rfl <;> rfl

theorem recovery_code_ofCode {b : Byte} (h : b ≤ 2) : (Recovery.ofCode b).code = b := by
  have : b = 0 ∨ b = 1 ∨ b = 2 := by bv_omega
  rcases this with rfl | rfl | rfl <;> rfl

theorem monitorPort_reads_back {b : Byte} (h : b ≤ 3 ∨ b = 255) :
    ((if b = 255 then none else some (byteFin4 b) : Option Port).map portByte).getD 255 = b := by
  split
  · exact Eq.symm ‹b = 255›
  · exact portByte_byteFin4 (h.resolve_right ‹_›)

theorem be32_append (x y : Half) : be32 (x ++ y) = be16 x ++ be16 y := by
  rw [be32, BitVec.extractLsb'_append_eq_left, BitVec.extractLsb'_append_eq_right]

theorem be64_append (x y : BitVec 32) : be64 (x ++ y) = be32 x ++ be32 y := by
  rw [be64, BitVec.extractLsb'_append_eq_left, BitVec.extractLsb'_append_eq_right]

theorem be64_wideAt (bytes : List Byte) (i : Nat) : be64 (wideAt bytes i)
    = be16 (halfAt bytes i) ++ be16 (halfAt bytes (i + 2)) ++ (be16 (halfAt bytes (i + 4)) ++ be16 (halfAt bytes (i + 6))) := by
  have halves : wideAt bytes i
      = (halfAt bytes i ++ halfAt bytes (i + 2)) ++ (halfAt bytes (i + 4) ++ halfAt bytes (i + 6)) := BitVec.append_assoc
  rw [halves, be64_append, be32_append, be32_append]

/-- R180: a PORT record read from an image of the table's length has that image. -/
theorem portRec_image_of_ofImage {img : List Byte} {r : PortRec} (len : img.length = 13) (read : PortRec.ofImage img = some r) :
    r.image = img := by
  unfold PortRec.ofImage at read
  split at read
  case isFalse => contradiction
  case isTrue ok =>
    obtain rfl := Option.some.inj read
    simp only [portImageOk, Bool.and_eq_true, decide_eq_true_eq, and_assoc] at ok
    obtain ⟨ring, admitMode, -, -, -, -, -, -, -, -, arb, recovery⟩ := ok
    have ring : (byteAt img 0).toNat < 2 ^ 2 := by bv_omega
    conv_rhs => rw [← map_byteAt_range img, len]
    simp only [PortRec.image, setWidth_setWidth_of_lt, boolByte_beq_one, be16_halfAt, arb_code_ofCode, recovery_code_ofCode,
      ring, admitMode, arb, recovery]
    rfl

/-- R180: a GATEWAY record read from an image of the table's length has that image. -/
theorem settings_image_of_ofImage {img : List Byte} {r : Settings} (len : img.length = 24)
    (read : Settings.ofImage img = some r) : r.image = img := by
  unfold Settings.ofImage at read
  split at read
  case isFalse => contradiction
  case isTrue ok =>
    obtain rfl := Option.some.inj read
    simp only [settingsImageOk, Bool.and_eq_true, Bool.or_eq_true, decide_eq_true_eq, beq_iff_eq, and_assoc] at ok
    obtain ⟨-, strict, -, -, readRing, writeRing, reportPort, reportSvc, -, monitorPort, monitorSvc, -⟩ := ok
    have readRing : (byteAt img 3).toNat < 2 ^ 2 := by bv_omega
    have writeRing : (byteAt img 4).toNat < 2 ^ 2 := by bv_omega
    conv_rhs => rw [← map_byteAt_range img, len]
    simp only [Settings.image, setWidth_setWidth_of_lt, boolByte_beq_one, be64_wideAt, be16_svcHalf, be16_halfAt,
      portByte_byteFin4, monitorPort_reads_back, strict, readRing, writeRing, reportPort, reportSvc, monitorPort, monitorSvc]
    rfl

theorem ruleEntry_image_of_ofImage {img : List Byte} {e : RuleEntry} (len : img.length = 23)
    (read : RuleEntry.ofImage img = some e) : e.image = img := by
  by_cases good : RuleImageInRange img
  · obtain ⟨e', read', image⟩ := ruleEntry_ofImage_eq_some len good
    exact Option.some.inj (read.symm.trans read') ▸ image
  · exact nomatch (ruleEntry_ofImage_eq_none good).symm.trans read

theorem serviceEntry_image_of_ofImage {img : List Byte} {e : ServiceEntry} (len : img.length = 19)
    (read : ServiceEntry.ofImage img = some e) : e.image = img := by
  by_cases good : ServiceImageInRange img
  · obtain ⟨e', read', image⟩ := serviceEntry_ofImage_eq_some len good
    exact Option.some.inj (read.symm.trans read') ▸ image
  · exact nomatch (serviceEntry_ofImage_eq_none good).symm.trans read

theorem queueRec_image_of_ofImage {img : List Byte} {r : QueueRec} (len : img.length = 3)
    (read : QueueRec.ofImage img = some r) : r.image = img := by
  unfold QueueRec.ofImage at read
  split at read
  case isFalse => contradiction
  case isTrue =>
    obtain rfl := Option.some.inj read
    conv_rhs => rw [← map_byteAt_range img, len]
    simp only [QueueRec.image, be16_halfAt]
    rfl

/-! ### Entries that read back (R2, R24, R71, R140, R161) -/

/-- A GATEWAY record that reads back does so with every other station number below 255. -/
theorem settings_reads_back_withGsn {r : Settings} {g : Station} (named : g ≤ 254) (read : Settings.ofImage r.image = some r) :
    Settings.ofImage ({ r with gsn := g } : Settings).image = some { r with gsn := g } := by
  unfold Settings.ofImage at read ⊢
  split at read
  case isFalse => contradiction
  case isTrue ok =>
    have ok' : settingsImageOk ({ r with gsn := g } : Settings).image = true := by
      simp only [settingsImageOk, Bool.and_eq_true, and_assoc] at ok ⊢
      exact ⟨decide_eq_true named, ok.2⟩
    rw [if_pos ok']
    exact congrArg (fun x : Settings => some { x with gsn := g }) (Option.some.inj read)

theorem settings_reset_reads_back {gsn : Station} (named : gsn ≤ 254) (bringup : Port) :
    Settings.ofImage (Settings.reset gsn bringup).image = some (Settings.reset gsn bringup) := by
  have unnamed : ∀ p : Port, Settings.ofImage (Settings.reset 0 p).image = some (Settings.reset 0 p) := by decide
  exact settings_reads_back_withGsn (r := Settings.reset 0 bringup) named (unnamed bringup)

theorem ruleEntry_reset_reads_back : RuleEntry.ofImage RuleEntry.reset.image = some RuleEntry.reset := by decide

theorem serviceEntry_reset_reads_back : ServiceEntry.ofImage ServiceEntry.reset.image = some ServiceEntry.reset := by decide

theorem portRec_reset_reads_back (bringup : Bool) :
    PortRec.ofImage (PortRec.reset bringup).image = some (PortRec.reset bringup) := by cases bringup <;> decide

theorem queueRec_reset_reads_back : QueueRec.ofImage QueueRec.reset.image = some QueueRec.reset := by decide

/-- A GATEWAY record that reads back names a station as its GSN. -/
theorem gsn_le_of_reads_back {r : Settings} (read : Settings.ofImage r.image = some r) : r.gsn ≤ 254 := by
  unfold Settings.ofImage at read
  split at read
  case isFalse => contradiction
  case isTrue ok =>
    simp only [settingsImageOk, Bool.and_eq_true, decide_eq_true_eq, and_assoc] at ok
    exact ok.1

end Sys2Proof.Machine
end

section
/-! Writes of service entries (R24 to R26, R156, R180): the checks in their order, and the statement about them. -/

namespace Sys2Proof.Machine
open Sys2Proof

theorem indexOf_eq_none {b : Byte} (h : 127 < b) : indexOf b = none := dif_neg (by bv_omega)

theorem indexOf_eq_some {b : Byte} {i : Fin 128} (h : i.val = b.toNat) : indexOf b = some i := by
  have small : b.toNat < 128 := h ▸ i.isLt
  rw [indexOf, dif_pos small]
  exact congrArg some (Fin.ext h.symm)

theorem service_setService (s : State) (i j : SvcIx) (e : ServiceEntry) :
    (s.setService i e).service j = if i = j then e else s.service j := look_put _ _ _ _

theorem targetUsable_iff (s : State) (e : ServiceEntry) : s.targetUsable e = true ↔
    (s.service e.target).valid = true ∧ (s.service e.target).kind ≠ .gate ∧ (s.service e.target).svcLo ≤ e.entrySvc
      ∧ e.entrySvc ≤ (s.service e.target).svcHi := by
  simp only [State.targetUsable, Bool.and_eq_true, bne_iff_ne, decide_eq_true_eq, and_assoc, ne_eq]

/-- R26 as a proposition: two keys share a pair of station and service. -/
theorem keysMeet_iff (a b : ServiceEntry) :
    keysMeet a b = true ↔ a.station = b.station ∧ a.svcLo ≤ b.svcHi ∧ b.svcLo ≤ a.svcHi := by
  simp only [keysMeet, Bool.and_eq_true, beq_iff_eq, decide_eq_true_eq, and_assoc]

theorem keysMeet_comm (a b : ServiceEntry) : keysMeet a b = keysMeet b a := by
  rw [Bool.eq_iff_iff, keysMeet_iff, keysMeet_iff]
  tauto

theorem overlapsOther_iff (s : State) (i : SvcIx) (e : ServiceEntry) : overlapsOther s i e = true ↔
    ∃ j, j ≠ i ∧ (s.service j).valid = true ∧ keysMeet e (s.service j) = true := by
  simp only [overlapsOther, List.any_eq_true, List.mem_finRange, Bool.and_eq_true, bne_iff_ne, true_and, and_assoc, ne_eq]

/-! ### The outcomes of the write -/

section
variable {s : State} {q : Request}

theorem opWriteService_badIndex (index : indexOf (byteAt q.payload 1) = none) :
    opWriteService s q = refusedWith s .badIndex := by
  unfold opWriteService
  rw [index]

variable {i : SvcIx} (index : indexOf (byteAt q.payload 1) = some i)
include index

theorem opWriteService_badValue (read : ServiceEntry.ofImage (writtenImage q) = none) :
    opWriteService s q = refusedWith s .badValue := by
  unfold opWriteService
  rw [index, read]

variable {e : ServiceEntry} (read : ServiceEntry.ofImage (writtenImage q) = some e)
include read

theorem opWriteService_read : opWriteService s q =
    if e.valid = true ∧ e.kind = .gate ∧ (s.setService i e).targetUsable e = false then refusedWith s .badTarget
    else if e.valid = true ∧ overlapsOther s i e = true then refusedWith s .overlap
    else doneEmpty (s.setService i e) := by
  unfold opWriteService
  rw [index, read]

theorem opWriteService_badTarget (valid : e.valid = true) (gate : e.kind = .gate)
    (unusable : (s.setService i e).targetUsable e = false) : opWriteService s q = refusedWith s .badTarget := by
  rw [opWriteService_read index read, if_pos ⟨valid, gate, unusable⟩]

theorem opWriteService_overlap (valid : e.valid = true) (usable : e.kind = .gate → (s.setService i e).targetUsable e = true)
    (meets : overlapsOther s i e = true) : opWriteService s q = refusedWith s .overlap := by
  rw [opWriteService_read index read, if_neg, if_pos ⟨valid, meets⟩]
  rintro ⟨-, gate, unusable⟩
  exact absurd (usable gate) (by simp [unusable])

theorem opWriteService_done
    (passes : e.valid = true → (e.kind = .gate → (s.setService i e).targetUsable e = true) ∧ overlapsOther s i e = false) :
    opWriteService s q = doneEmpty (s.setService i e) := by
  rw [opWriteService_read index read, if_neg, if_neg]
  · rintro ⟨valid, meets⟩
    exact absurd (passes valid).2 (by simp [meets])
  · rintro ⟨valid, gate, unusable⟩
    exact absurd ((passes valid).1 gate) (by simp [unusable])

end

theorem opWriteService_owed (s : State) (q : Request) : (opWriteService s q).owed = none := by
  unfold opWriteService
  split
  · rfl
  · split
    · rfl
    · split
      · rfl
      · split <;> rfl

end Sys2Proof.Machine

open Sys2Proof Sys2Proof.Machine

/-- Settles O46: the write is refused by the first check that fails, or puts the entry its image reads as at its index. -/
theorem writesOfServiceEntries : Obligations.WritesOfServiceEntries := by
  intro s o e runs pl img valid station svcLo svcHi kind ring present port limit timeout target entrySvc words cmdOk noticeOk
    inRange
  refine ⟨opWriteService s.dropHead (s.request e), exec_rowOf_of_runs runs o, opWriteService_owed _ _, fun bad => ?_,
    fun i hi => ?_⟩
  · rw [opWriteService_badIndex (indexOf_eq_none bad)]
    exact ⟨rfl, rfl, rfl⟩
  · have index : indexOf (byteAt (s.request e).payload 1) = some i := indexOf_eq_some hi
    refine ⟨fun bad => ?_, fun good => ?_⟩
    · rw [opWriteService_badValue index (serviceEntry_ofImage_eq_none bad)]
      exact ⟨rfl, rfl, rfl⟩
    · have len : img.length = 19 := by
        simp [img, pl, payload_length_of_runs_write (t := .service) runs, TableName.imageLength]
      obtain ⟨v, read, image⟩ := serviceEntry_ofImage_eq_some len good
      refine ⟨v, read, image, ?_⟩
      intro aimed usable meets
      have aims : (s.dropHead.setService i v).service v.target = aimed :=
        (service_setService _ _ _ _).trans (by simp only [aimed, eq_comm (a := i)]; rfl)
      have usable_iff : (s.dropHead.setService i v).targetUsable v = true ↔ usable := by
        rw [targetUsable_iff, aims]
      have meets_iff : overlapsOther s.dropHead i v = true ↔ meets := by
        simp only [overlapsOther_iff, keysMeet_iff]
        rfl
      refine ⟨fun isValid gate unusable => ?_, fun isValid passes meet => ?_, fun passes => ?_⟩
      · rw [opWriteService_badTarget index read isValid gate (by rwa [← Bool.not_eq_true, usable_iff])]
        exact ⟨rfl, rfl, rfl⟩
      · rw [opWriteService_overlap index read isValid (fun gate => usable_iff.mpr (passes gate)) (meets_iff.mpr meet)]
        exact ⟨rfl, rfl, rfl⟩
      · rw [opWriteService_done index read]
        · refine ⟨rfl, rfl, ?_, fun j hj => ?_, rfl, rfl, rfl, rfl, rfl⟩
          · exact (service_setService _ _ _ _).trans (if_pos rfl)
          · exact (service_setService _ _ _ _).trans (if_neg (Ne.symm hj))
        · intro isValid
          rcases passes with invalid | ⟨aim, apart⟩
          · exact absurd isValid (by simp [invalid])
          · exact ⟨fun gate => usable_iff.mpr (aim gate), by rwa [← Bool.not_eq_true, meets_iff]⟩
end

section
/-! The tables stay consistent (R26, R4, R2, R24, R140, R71, R161): every write keeps them so, and nothing else reaches them. -/

namespace Sys2Proof.Machine
open Sys2Proof

/-! ### What each write does to the invariant -/

/-- The invariant: keys and blocks disjoint, and every stored record within its ranges. -/
def TablesConsistent (s : State) : Prop := KeysDisjoint s ∧ BlocksDisjoint s ∧ TablesReadable s

theorem tablesConsistent_of_tables {s t : State} (same : t.tables = s.tables) (h : TablesConsistent s) : TablesConsistent t := by
  simpa only [TablesConsistent, KeysDisjoint, BlocksDisjoint, TablesReadable, State.service, State.portRec, State.rule,
    State.queueRec, State.settings, same] using h

theorem blocksMeet_comm (a b : PortRec) : blocksMeet a b = blocksMeet b a := by
  rw [Bool.eq_iff_iff]
  simp only [blocksMeet, Bool.and_eq_true]
  tauto

/-- A rule list whose entries all read back. -/
theorem tablesConsistent_withRules {s : State} (h : TablesConsistent s) {v : Vector RuleEntry 256}
    (reads : ∀ i, RuleEntry.ofImage (look v i).image = some (look v i)) :
    TablesConsistent { s with tables := { s.tables with rules := v } } := by
  obtain ⟨keys, blocks, -, others⟩ := h
  exact ⟨keys, blocks, reads, others⟩

/-- A service table whose entries all read back and whose valid keys are disjoint. -/
theorem tablesConsistent_withServices {s : State} (h : TablesConsistent s) {v : Vector ServiceEntry 128}
    (keys : ∀ i j, i ≠ j → (look v i).valid = true → (look v j).valid = true → keysMeet (look v i) (look v j) = false)
    (reads : ∀ i, ServiceEntry.ofImage (look v i).image = some (look v i)) :
    TablesConsistent { s with tables := { s.tables with services := v } } := by
  obtain ⟨-, blocks, rules, -, others⟩ := h
  exact ⟨keys, blocks, rules, reads, others⟩

theorem tablesConsistent_setRule {s : State} (h : TablesConsistent s) (i : RuleIx) {e : RuleEntry}
    (reads : RuleEntry.ofImage e.image = some e) : TablesConsistent (s.setRule i e) := by
  have ⟨_, _, rules, _⟩ := h
  refine tablesConsistent_withRules h fun j => ?_
  rw [look_put]
  split
  · exact reads
  · exact rules j

/-- R26: an entry joins the table with a key that meets no other. -/
theorem keysDisjoint_setService {s : State} (h : KeysDisjoint s) {i : SvcIx} {e : ServiceEntry}
    (apart : e.valid = true → overlapsOther s i e = false) : KeysDisjoint (s.setService i e) := by
  have apartFrom (valid : e.valid = true) (j : SvcIx) (other : j ≠ i) (jValid : (s.service j).valid = true) :
      keysMeet e (s.service j) = false := by
    by_contra meet
    have overlaps := (overlapsOther_iff s i e).mpr ⟨j, other, jValid, by simpa using meet⟩
    simp [apart valid] at overlaps
  intro j k ne
  rw [service_setService, service_setService]
  by_cases hj : i = j <;> by_cases hk : i = k
  · exact absurd (hj.symm.trans hk) ne
  · rw [if_pos hj, if_neg hk]
    exact fun valid kValid => apartFrom valid k (Ne.symm hk) kValid
  · rw [if_neg hj, if_pos hk, keysMeet_comm]
    exact fun jValid valid => apartFrom valid j (Ne.symm hj) jValid
  · rw [if_neg hj, if_neg hk]
    exact h j k ne

theorem tablesConsistent_setService {s : State} (h : TablesConsistent s) {i : SvcIx} {e : ServiceEntry}
    (reads : ServiceEntry.ofImage e.image = some e) (apart : e.valid = true → overlapsOther s i e = false) :
    TablesConsistent (s.setService i e) := by
  have ⟨keys, _, _, services, _⟩ := h
  refine tablesConsistent_withServices h (keysDisjoint_setService keys apart) fun j => ?_
  rw [look_put]
  split
  · exact reads
  · exact services j

theorem portRec_setPortRec (s : State) (p q : Port) (r : PortRec) :
    (s.setPortRec p r).portRec q = if p = q then r else s.portRec q := look_put _ _ _ _

/-- R4: a rule block that lies in the list joins the others, of which it shares an index with none. -/
theorem blocksDisjoint_setPortRec {s : State} (h : BlocksDisjoint s) {p : Port} {r : PortRec}
    (within : r.ruleStart.toNat + r.ruleCount.toNat ≤ 256) (apart : blockOverlapsOther s p r = false) :
    BlocksDisjoint (s.setPortRec p r) := by
  obtain ⟨inList, disjoint⟩ := h
  have apartFrom (q : Port) (other : q ≠ p) : blocksMeet r (s.portRec q) = false := by
    simp only [blockOverlapsOther, List.any_eq_false, List.mem_finRange, Bool.and_eq_true, bne_iff_ne, not_and,
      Bool.not_eq_true, true_imp_iff] at apart
    exact apart q other
  refine ⟨fun q => ?_, fun j k ne => ?_⟩
  · rw [portRec_setPortRec]
    split
    · exact within
    · exact inList q
  · rw [portRec_setPortRec, portRec_setPortRec]
    by_cases hj : p = j <;> by_cases hk : p = k
    · exact absurd (hj.symm.trans hk) ne
    · rw [if_pos hj, if_neg hk]
      exact apartFrom k (Ne.symm hk)
    · rw [if_neg hj, if_pos hk, blocksMeet_comm]
      exact apartFrom j (Ne.symm hj)
    · rw [if_neg hj, if_neg hk]
      exact disjoint j k ne

theorem tablesConsistent_setPortRec {s : State} (h : TablesConsistent s) {p : Port} {r : PortRec}
    (reads : PortRec.ofImage r.image = some r) (within : r.ruleStart.toNat + r.ruleCount.toNat ≤ 256)
    (apart : blockOverlapsOther s p r = false) : TablesConsistent (s.setPortRec p r) := by
  obtain ⟨keys, blocks, rules, services, ports, others⟩ := h
  refine ⟨keys, blocksDisjoint_setPortRec blocks within apart, rules, services, fun q => ?_, others⟩
  rw [portRec_setPortRec]
  split
  · exact reads
  · exact ports q

theorem tablesConsistent_setQueueRec {s : State} (h : TablesConsistent s) (i : Fin 16) {r : QueueRec}
    (reads : QueueRec.ofImage r.image = some r) : TablesConsistent (s.setQueueRec i r) := by
  obtain ⟨keys, blocks, rules, services, ports, queues, settings⟩ := h
  refine ⟨keys, blocks, rules, services, ports, fun p d => ?_, settings⟩
  rw [queueRec_setQueueRec]
  split
  · exact reads
  · exact queues p d

theorem tablesConsistent_setSettings {s : State} (h : TablesConsistent s) {r : Settings}
    (reads : Settings.ofImage r.image = some r) : TablesConsistent (s.setSettings r) := by
  obtain ⟨keys, blocks, rules, services, ports, queues, -⟩ := h
  exact ⟨keys, blocks, rules, services, ports, queues, reads⟩

theorem look_clearRange {α : Type} {n : Nat} (v : Vector α n) (first last : Nat) (x : α) (i : Fin n) :
    look (clearRange v first last x) i = if first ≤ i.val ∧ i.val ≤ last then x else look v i := by
  simp [look, clearRange]

theorem tablesConsistent_clearRules {s : State} (h : TablesConsistent s) (first last : Nat) :
    TablesConsistent (s.setTables (fun t => { t with rules := clearRange t.rules first last RuleEntry.reset })) := by
  have ⟨_, _, rules, _⟩ := h
  refine tablesConsistent_withRules h fun i => ?_
  rw [look_clearRange]
  split
  · exact ruleEntry_reset_reads_back
  · exact rules i

theorem tablesConsistent_clearServices {s : State} (h : TablesConsistent s) (first last : Nat) :
    TablesConsistent (s.setTables (fun t => { t with services := clearRange t.services first last ServiceEntry.reset })) := by
  have ⟨keys, _, _, services, _⟩ := h
  refine tablesConsistent_withServices h (fun i j ne => ?_) fun i => ?_
  · rw [look_clearRange, look_clearRange]
    split
    · exact fun valid => nomatch valid
    · split
      · exact fun _ valid => nomatch valid
      · exact keys i j ne
  · rw [look_clearRange]
    split
    · exact serviceEntry_reset_reads_back
    · exact services i

/-- The tables of a reset, under a GSN that is a station (R1, R23, R71, R140, R161, R173, R176). -/
theorem tablesConsistent_atReset {gsn : Station} (named : gsn ≤ 254) (bringup : Port) (reception : Port → Reception)
    (pending : List Instr) : TablesConsistent (State.atReset gsn bringup reception pending) := by
  have rule (i : RuleIx) : (State.atReset gsn bringup reception pending).rule i = RuleEntry.reset := look_replicate _ _
  have service (i : SvcIx) : (State.atReset gsn bringup reception pending).service i = ServiceEntry.reset := look_replicate _ _
  have queueRec (p : Port) (d : DataQ) : (State.atReset gsn bringup reception pending).queueRec p d = QueueRec.reset :=
    look_replicate _ _
  have portRec (p : Port) : ∃ b, (State.atReset gsn bringup reception pending).portRec p = PortRec.reset b := by
    show ∃ b, look (put _ _ _) p = _
    rw [look_put, look_replicate]
    split
    · exact ⟨true, rfl⟩
    · exact ⟨false, rfl⟩
  refine ⟨fun i j _ valid => ?_, ⟨fun p => ?_, fun p q _ => ?_⟩, fun i => ?_, fun i => ?_, fun p => ?_, fun p d => ?_,
    settings_reset_reads_back named bringup⟩
  · rw [service] at valid
    exact nomatch valid
  · obtain ⟨b, hb⟩ := portRec p
    rw [hb]
    show (0 : Byte).toNat + (0 : Half).toNat ≤ 256
    decide
  · obtain ⟨b, hb⟩ := portRec p
    rw [hb]
    rfl
  · rw [rule]
    exact ruleEntry_reset_reads_back
  · rw [service]
    exact serviceEntry_reset_reads_back
  · obtain ⟨b, hb⟩ := portRec p
    rw [hb]
    exact portRec_reset_reads_back b
  · rw [queueRec]
    exact queueRec_reset_reads_back

/-! ### What an operation does to the tables -/

/-- The operations that may write the tables. -/
def Operation.writesTables : Operation → Bool
  | .writeRule | .writeService | .writePort | .writeQueue | .writeGateway | .clearTable => true
  | _ => false

theorem keeps_opReadCounters (s : State) (q : Request) : Keeps s (opReadCounters s q).state := by
  unfold opReadCounters
  split
  · exact Keeps.refl s
  · split
    · exact Keeps.refl s
    · split
      · exact Keeps.ite (keeps_modPortCount s _ _) (Keeps.refl s)
      · exact Keeps.ite (keeps_modCount s _) (Keeps.refl s)

theorem keeps_opSetPortState (s : State) (q : Request) : Keeps s (opSetPortState s q).state := by
  unfold opSetPortState
  split
  · exact Keeps.refl s
  · split
    · exact Keeps.refl s
    · split
      · exact Keeps.refl s
      · split
        · exact Keeps.refl s
        · split
          · exact keeps_transition s _ _
          · exact Keeps.refl s

theorem keeps_opAbortQueue (s : State) (q : Request) : Keeps s (opAbortQueue s q).state := by
  unfold opAbortQueue
  split
  · exact Keeps.refl s
  · split
    · exact Keeps.refl s
    · exact keeps_abortQueue s _ _

theorem keeps_opCancelCall (s : State) (q : Request) : Keeps s (opCancelCall s q).state := by
  unfold opCancelCall
  split
  · exact Keeps.refl s
  · split
    · exact Keeps.refl s
    · split
      · exact (keeps_withdrawIfQueued s _).trans (keeps_freeRecord _ _)
      · exact Keeps.refl s

theorem state_opReadTable (s : State) (q : Request) : (opReadTable s q).state = s := by
  unfold opReadTable
  split
  · rfl
  · split
    · rfl
    · split <;> rfl

theorem state_opReadCall (s : State) (q : Request) : (opReadCall s q).state = s := by
  unfold opReadCall
  split <;> rfl

theorem state_opProbe (s : State) (q : Request) : (opProbe s q).state = s := by
  unfold opProbe
  split
  · rfl
  · split <;> rfl

/-- R147, R151: no operation but the WRITE TABLEs and CLEAR TABLE reaches the tables. -/
theorem keeps_execute {op : Operation} (h : op.writesTables = false) (s : State) (q : Request) :
    Keeps s (execute op s q).state := by
  cases op with
  | writeRule | writeService | writePort | writeQueue | writeGateway | clearTable => contradiction
  | identify | readState => exact Keeps.refl s
  | readTable => exact (state_opReadTable s q).symm ▸ Keeps.refl s
  | readCall => exact (state_opReadCall s q).symm ▸ Keeps.refl s
  | probe => exact (state_opProbe s q).symm ▸ Keeps.refl s
  | setPortState => exact keeps_opSetPortState s q
  | abortQueue => exact keeps_opAbortQueue s q
  | cancelCall => exact keeps_opCancelCall s q
  | readEvents => exact (keeps_settleTriggers s).trans ⟨rfl, rfl, rfl⟩
  | readCounters => exact keeps_opReadCounters s q
  | restart => exact ⟨rfl, rfl, rfl⟩

/-! ### The writes keep the invariant -/

/-- What follows the write of the GATEWAY record in its act leaves the tables alone (R87, R165). -/
theorem keeps_writeSettings (s : State) (r : Settings) : Keeps (s.setSettings r) (writeSettings s r) := by
  have marks : Keeps (s.setSettings r) (judgeMarks s r) := (keeps_judge _ _ _).trans (keeps_judge _ _ _)
  have triggers : Keeps (judgeMarks s r) (takeNewTriggers s (judgeMarks s r)) := Keeps.foldl keeps_noticeStep _ _
  refine (marks.trans triggers).trans ?_
  unfold writeSettings leaveMonitor
  split
  · exact Keeps.refl _
  · exact Keeps.ite (Keeps.refl _) (keeps_abortQueue _ _ _)

section
variable {s : State} (h : TablesConsistent s) {q : Request}
include h

theorem tablesConsistent_opWriteRule (len : (writtenImage q).length = 23) : TablesConsistent (opWriteRule s q).state := by
  unfold opWriteRule
  split
  · exact h
  · next read => exact tablesConsistent_setRule h _ ((ruleEntry_image_of_ofImage len read).symm ▸ read)

theorem tablesConsistent_opWriteService (len : (writtenImage q).length = 19) :
    TablesConsistent (opWriteService s q).state := by
  unfold opWriteService
  split
  · exact h
  · split
    · exact h
    · next read =>
      split
      · exact h
      · split
        · exact h
        · next apart =>
          refine tablesConsistent_setService h ((serviceEntry_image_of_ofImage len read).symm ▸ read) fun valid => ?_
          simpa [valid] using apart

theorem tablesConsistent_opWritePort (len : (writtenImage q).length = 13) : TablesConsistent (opWritePort s q).state := by
  unfold opWritePort
  split
  · exact h
  · split
    · exact h
    · next r read =>
      split
      · exact h
      · next marks =>
        split
        · exact h
        · next apart =>
          split
          · exact h
          · have within : r.ruleStart.toNat + r.ruleCount.toNat ≤ 256 := by
              simp only [portMarksOk, Bool.not_eq_false, Bool.and_eq_true, decide_eq_true_eq] at marks
              exact marks.2
            exact tablesConsistent_setPortRec h ((portRec_image_of_ofImage len read).symm ▸ read) within (by simpa using apart)

theorem tablesConsistent_opWriteQueue (len : (writtenImage q).length = 3) : TablesConsistent (opWriteQueue s q).state := by
  unfold opWriteQueue
  split
  · split
    · exact h
    · next read => exact tablesConsistent_setQueueRec h _ ((queueRec_image_of_ofImage len read).symm ▸ read)
  · exact h

theorem tablesConsistent_opWriteGateway (len : (writtenImage q).length = 24) :
    TablesConsistent (opWriteGateway s q).state := by
  unfold opWriteGateway
  split
  · exact h
  · split
    · exact h
    · next r read =>
      split
      · exact h
      · exact tablesConsistent_of_tables (keeps_writeSettings s r).tables
          (tablesConsistent_setSettings h ((settings_image_of_ofImage len read).symm ▸ read))

theorem tablesConsistent_opClearTable : TablesConsistent (opClearTable s q).state := by
  unfold opClearTable
  dsimp only
  split
  · split
    · exact h
    · exact tablesConsistent_clearRules h _ _
  · split
    · exact h
    · exact tablesConsistent_clearServices h _ _
  · exact h
  · exact h
  · exact h
  · exact h

end

theorem writtenImage_length_of_runs {s : State} {e : MgmtEntry} {t : TableName} (h : s.runs e t.write) :
    (writtenImage (s.request e)).length = t.imageLength := by
  simp [writtenImage, payload_length_of_runs_write h]

/-- Every operation that runs keeps the tables consistent. -/
theorem tablesConsistent_execute {s : State} (h : TablesConsistent s) {e : MgmtEntry} {op : Operation} (runs : s.runs e op) :
    TablesConsistent (execute op s.dropHead (s.request e)).state := by
  have h : TablesConsistent s.dropHead := h
  cases writes : op.writesTables with
  | false => exact tablesConsistent_of_tables (keeps_execute writes _ _).tables h
  | true =>
    cases op with
    | writeRule => exact tablesConsistent_opWriteRule h (writtenImage_length_of_runs (t := .rule) runs)
    | writeService => exact tablesConsistent_opWriteService h (writtenImage_length_of_runs (t := .service) runs)
    | writePort => exact tablesConsistent_opWritePort h (writtenImage_length_of_runs (t := .port) runs)
    | writeQueue => exact tablesConsistent_opWriteQueue h (writtenImage_length_of_runs (t := .queue) runs)
    | writeGateway => exact tablesConsistent_opWriteGateway h (writtenImage_length_of_runs (t := .gateway) runs)
    | clearTable => exact tablesConsistent_opClearTable h
    | _ => contradiction

/-! ### Every step keeps the invariant -/

/-- A take leaves the tables as they are, or as the operation it runs leaves them. -/
theorem tables_manage (s : State) (o : Interleaving) : (s.manage o).tables = s.tables
    ∨ ∃ e op, s.judgeHead = .run e op ∧ (s.manage o).tables = (execute op s.dropHead (s.request e)).state.tables := by
  unfold State.manage
  split
  · exact .inl rfl
  · exact .inl (keeps_release _ _).tables
  · exact .inl ((keeps_raise _ _).trans (keeps_release _ _)).tables
  · exact .inl ((keeps_answer _ _ _ _ _).tables.trans (keeps_raise s.dropHead _).tables)
  · exact .inl (keeps_answer _ _ _ _ _).tables
  · next e op judged => exact .inr ⟨e, op, judged, (keeps_answer _ _ _ _ _).tables⟩

section
variable {s t : State} (h : TablesConsistent s)
include h

theorem tablesConsistent_manage (run : s.resetAsserted = false) (o : Interleaving) : TablesConsistent (s.manage o) := by
  rcases tables_manage s o with same | ⟨e, op, judged, same⟩
  · exact tablesConsistent_of_tables same h
  · exact tablesConsistent_of_tables same (tablesConsistent_execute h ⟨run, judged⟩)

theorem tablesConsistent_takeOf (run : s.resetAsserted = false) (op : Operation) (o : Interleaving) :
    TablesConsistent (State.takeOf op o s) := by
  unfold State.takeOf
  split
  · split
    · exact tablesConsistent_manage h run o
    · exact h
  all_goals exact h

theorem tablesConsistent_restartAct : TablesConsistent s.restartAct := by
  have ⟨_, _, _, _, _, _, settings⟩ := h
  unfold State.restartAct
  split
  · exact tablesConsistent_atReset (gsn_le_of_reads_back settings) _ _ _
  · exact h
  · exact h

/-- R173: a command that is taken only while the reset pin is released. -/
theorem tablesConsistent_running {f : State → State} (k : s.resetAsserted = false → TablesConsistent (f s))
    (ran : running f s = .next t) : TablesConsistent t := by
  unfold running at ran
  split at ran
  · exact Host.Outcome.next.inj ran ▸ h
  · next run => exact Host.Outcome.next.inj ran ▸ k (by simpa using run)

theorem tablesConsistent_ofKeeps {f : State → State} (k : ∀ s, Keeps s (f s)) (ran : running f s = .next t) :
    TablesConsistent t :=
  tablesConsistent_running h (fun _ => tablesConsistent_of_tables (k s).tables h) ran

/-- Every command keeps the tables consistent. -/
theorem tablesConsistent_exec {c : Instr} (ran : exec c s = .next t) : TablesConsistent t := by
  have taken (op : Operation) (o : Interleaving) (ran : running (State.takeOf op o) s = .next t) : TablesConsistent t :=
    tablesConsistent_running h (fun run => tablesConsistent_takeOf h run op o) ran
  cases c with
  | resetAssert => exact Host.Outcome.next.inj ran ▸ h
  | resetRelease bringup stn =>
    have named : ∀ stn : BitVec 3, Config.gsnBase + stn.setWidth 8 ≤ 254 := by decide
    exact Host.Outcome.next.inj ran ▸ tablesConsistent_atReset (named stn) _ _ _
  | restartAct => exact tablesConsistent_running h (fun _ => tablesConsistent_restartAct h) ran
  | frameReceived p chars => exact tablesConsistent_ofKeeps h (fun s => keeps_arriveFrame s p chars) ran
  | brokenFrame p i => exact tablesConsistent_ofKeeps h (fun s => Keeps.ite (keeps_arriveBroken s p i) (Keeps.refl s)) ran
  | ackReceived p => exact tablesConsistent_ofKeeps h (fun s => keeps_ackReceived s p) ran
  | nakReceived p r => exact tablesConsistent_ofKeeps h (fun s => keeps_nakReceived s p r) ran
  | ackWindowExpiry p => exact tablesConsistent_ofKeeps h (fun s => keeps_ackWindowExpiry s p) ran
  | strayAnswer p a => exact tablesConsistent_ofKeeps h (fun s => keeps_strayAnswer s p) ran
  | holdReceived p d => exact tablesConsistent_ofKeeps h (fun s => keeps_holdReceived s p d) ran
  | partnerHoldExpiry p => exact tablesConsistent_ofKeeps h (fun s => keeps_partnerHoldExpiry s p) ran
  | idleRun p => exact tablesConsistent_ofKeeps h (fun s => keeps_arriveIdleRun s p) ran
  | lossOfSignal p => exact tablesConsistent_ofKeeps h (fun s => keeps_arriveLoss s p) ran
  | unrecognisedCharacter p => exact tablesConsistent_ofKeeps h (fun s => keeps_arriveUnrecognised s p) ran
  | characterRecognised p c => exact tablesConsistent_ofKeeps h (fun s => keeps_arriveCharacter s p c) ran
  | transmitterSymbolEnd p => exact tablesConsistent_ofKeeps h (fun s => keeps_symbolEnd s p) ran
  | frameSent p => exact tablesConsistent_ofKeeps h (fun s => keeps_frameSent s p) ran
  | attemptStart p => exact tablesConsistent_ofKeeps h (fun s => keeps_attemptStart s p) ran
  | intervalTimerExpiry p q => exact tablesConsistent_ofKeeps h (fun s => keeps_intervalExpiry s p q) ran
  | holdResendExpiry p => exact tablesConsistent_ofKeeps h (fun s => keeps_holdResendExpiry s p) ran
  | decision p => exact tablesConsistent_ofKeeps h (fun s => keeps_decisionStep s p) ran
  | deliveredClaim p => exact tablesConsistent_ofKeeps h (fun s => keeps_takeOldest s _) ran
  | undeliverableClaim p => exact tablesConsistent_ofKeeps h (fun s => keeps_takeOldest s _) ran
  | targetPortDownClaim p => exact tablesConsistent_ofKeeps h (fun s => keeps_takeOldest s _) ran
  | portDownClaim p => exact tablesConsistent_ofKeeps h (fun s => keeps_takeOldest s _) ran
  | callExpiry i => exact tablesConsistent_ofKeeps h (fun s => keeps_callExpiry s i) ran
  | withdraw p tag => exact tablesConsistent_ofKeeps h (fun s => keeps_withdrawStep s p tag) ran
  | noticeAttempt f => exact tablesConsistent_ofKeeps h (fun s => keeps_noticeStep s f) ran
  | managementTake o => exact tablesConsistent_running h (f := (·.manage o)) (tablesConsistent_manage h · o) ran
  | identify o => exact taken .identify o ran
  | readTable o => exact taken .readTable o ran
  | writeTableRule o => exact taken .writeRule o ran
  | writeTableService o => exact taken .writeService o ran
  | writeTablePort o => exact taken .writePort o ran
  | writeTableQueue o => exact taken .writeQueue o ran
  | writeTableGateway o => exact taken .writeGateway o ran
  | clearTable o => exact taken .clearTable o ran
  | readState o => exact taken .readState o ran
  | setPortState o => exact taken .setPortState o ran
  | abortQueue o => exact taken .abortQueue o ran
  | cancelCall o => exact taken .cancelCall o ran
  | readCall o => exact taken .readCall o ran
  | readEvents o => exact taken .readEvents o ran
  | readCounters o => exact taken .readCounters o ran
  | probe o => exact taken .probe o ran
  | restart o => exact taken .restart o ran

end

end Sys2Proof.Machine

open Sys2Proof Sys2Proof.Machine

/-- Settles O54: a step on an empty queue leaves the tables, and every command keeps them consistent. -/
theorem tablesStayConsistent : Obligations.TablesStayConsistent := by
  intro s t h stepped
  unfold step at stepped
  split at stepped
  · obtain rfl := Host.Outcome.next.inj stepped
    unfold State.tick
    split <;> exact h
  · next c cs _ =>
    have h' : TablesConsistent { s with pending := cs } := h
    exact tablesConsistent_exec h' stepped
end

section
/-! The service stage (R22, R28 to R39): what each step asks, what the first failing one settles, and the statements. -/

namespace Sys2Proof.Machine
open Sys2Proof

/-! ### Step 4: the addressed entry (R29, R30) -/

/-- R29: a valid entry whose key covers the frame's destination and service. -/
def State.addresses (s : State) (h : Header) (i : SvcIx) : Prop :=
  (s.service i).valid = true ∧ (s.service i).station = h.dst ∧ (s.service i).svcLo ≤ h.svc ∧ h.svc ≤ (s.service i).svcHi

/-- R30: a gate that is addressed has a usable target. -/
def State.usable (s : State) (a : SvcIx) : Prop := (s.service a).kind = .gate → s.targetUsable (s.service a) = true

theorem usable_iff {s : State} {a : SvcIx} :
    s.usable a ↔ ¬ ((s.service a).kind = .gate ∧ s.targetUsable (s.service a) = false) := by
  simp [State.usable]

theorem addressedEntry_eq_none {s : State} {h : Header} (unaddressed : ∀ i, ¬ s.addresses h i) : s.addressedEntry h = none := by
  simpa [State.addressedEntry, State.addresses, and_assoc] using unaddressed

theorem addresses_of_addressedEntry {s : State} {h : Header} {a : SvcIx} (entry : s.addressedEntry h = some a) :
    s.addresses h a := by
  simpa [State.addresses, and_assoc] using List.find?_some entry

theorem addressedEntry_eq_some {s : State} {h : Header} {a : SvcIx} (found : s.addresses h a)
    (only : ∀ i, s.addresses h i → i = a) : s.addressedEntry h = some a := by
  cases entry : s.addressedEntry h with
  | none =>
    have missed := List.find?_eq_none.mp entry a (List.mem_finRange a)
    exact absurd found (by simpa [State.addresses, and_assoc] using missed)
  | some i => rw [only i (addresses_of_addressedEntry entry)]

/-! ### Steps 5 to 7: presence, access and rings (R31 to R35) -/

theorem offlineEntry_addressed {s : State} {a : SvcIx} (absent : (s.service a).present = false) :
    s.offlineEntry a = some a := by
  simp [State.offlineEntry, absent]

theorem offlineEntry_serving {s : State} {a : SvcIx} (present : (s.service a).present = true)
    (absent : (s.service (s.servingEntry a)).present = false) : s.offlineEntry a = some (s.servingEntry a) := by
  simp [State.offlineEntry, present, absent]

theorem offlineEntry_eq_none_iff (s : State) (a : SvcIx) : s.offlineEntry a = none ↔
    (s.service a).present = true ∧ (s.service (s.servingEntry a)).present = true := by
  unfold State.offlineEntry
  cases (s.service a).present <;> cases (s.service (s.servingEntry a)).present <;> simp

theorem accessPermitted_iff (s : State) (r : RuleEntry) (e : ServiceEntry) {kind : Kind} (ring : RingNo) (asks : kind ≠ .reply) :
    s.accessPermitted r e kind ring = true ↔ kind = .query
      ∨ (kind = .command ∧ r.cmdCap = true ∧ (e.cmdOk = true ∨ (ring = 0 ∧ s.settings.strict = false)))
      ∨ (kind = .notice ∧ e.kind ≠ .gate ∧ r.noticeCap = true ∧ e.noticeOk = true) := by
  cases kind with
  | query => simp [State.accessPermitted]
  | command => simp [State.accessPermitted]
  | notice => simp [State.accessPermitted, and_assoc]
  | reply => contradiction

theorem ringFailure_addressed {s : State} {a : SvcIx} {ring : RingNo} (ringed : (s.service a).kind ≠ .shared)
    (outer : ¬ ring ≤ (s.service a).ring) : s.ringFailure a ring = some a := by
  unfold State.ringFailure
  split
  · exact if_neg outer
  · contradiction
  · exact if_neg outer

theorem ringFailure_serving {s : State} {a : SvcIx} {ring : RingNo} (gate : (s.service a).kind = .gate)
    (inner : ring ≤ (s.service a).ring) (below : ¬ (s.service (s.servingEntry a)).ring ≤ ring) :
    s.ringFailure a ring = some (s.servingEntry a) := by
  simp [State.ringFailure, gate, inner, below]

theorem ringFailure_eq_none_iff (s : State) (a : SvcIx) (ring : RingNo) : s.ringFailure a ring = none ↔
    ((s.service a).kind ≠ .shared → ring ≤ (s.service a).ring)
      ∧ ((s.service a).kind = .gate → (s.service (s.servingEntry a)).ring ≤ ring) := by
  unfold State.ringFailure
  cases kind : (s.service a).kind with
  | direct => simp
  | shared => simp
  | gate =>
    by_cases inner : ring ≤ (s.service a).ring
    · simp [inner]
    · simp [inner]

/-! ### What the first failing step settles (R28) -/

section
variable {s : State} {r : RuleIx} {h : Header} {ring : RingNo} {len : Nat}

theorem serviceStage_unaddressed (entry : s.addressedEntry h = none) :
    s.serviceStage r h ring len = .refusal r .noService Config.noDetail ⟨none, none, none, some len⟩ := by
  simp [State.serviceStage, entry]

variable {a : SvcIx} (entry : s.addressedEntry h = some a)
include entry

theorem serviceStage_unusable (unusable : ¬ s.usable a) :
    s.serviceStage r h ring len = .refusal r .noService (detailOf a) ⟨none, none, none, some len⟩ := by
  simp only [State.serviceStage, entry, if_pos (not_not.mp (mt usable_iff.mpr unusable))]

variable (usable : s.usable a)
include usable

theorem serviceStage_offline {x : SvcIx} (offline : s.offlineEntry a = some x) : s.serviceStage r h ring len
    = .refusal r .notPresent (detailOf x) ⟨some (s.servingEntry a), none, none, some len⟩ := by
  simp only [State.serviceStage, entry, if_neg (usable_iff.mp usable), offline]

variable (online : s.offlineEntry a = none)
include online

theorem serviceStage_denied (denied : ¬ s.accessPermitted (s.rule r) (s.service a) h.kind ring = true) :
    s.serviceStage r h ring len
      = .refusal r .access (detailOf a) ⟨some (s.servingEntry a), none, none, some len⟩ := by
  simp only [State.serviceStage, entry, if_neg (usable_iff.mp usable), online, if_neg denied]

variable (permitted : s.accessPermitted (s.rule r) (s.service a) h.kind ring = true)
include permitted

theorem serviceStage_ringFailed {x : SvcIx} (failed : s.ringFailure a ring = some x) : s.serviceStage r h ring len
    = .refusal r .ring (detailOf x) ⟨some (s.servingEntry a), none, none, some len⟩ := by
  simp only [State.serviceStage, entry, if_neg (usable_iff.mp usable), online, if_pos permitted, failed]

theorem serviceStage_ringPassed (passed : s.ringFailure a ring = none) :
    s.serviceStage r h ring len = s.lastSteps r h (s.forwardingOf a h ring len) := by
  simp only [State.serviceStage, entry, if_neg (usable_iff.mp usable), online, if_pos permitted, passed]

end

/-! ### Steps 8 to 10: length, egress port and free record (R36 to R39) -/

section
variable {s : State} (r : RuleIx) {h : Header} {f : Forwarding}

theorem lastSteps_tooLong (long : (s.service f.serving).limit.toNat < f.length) : s.lastSteps r h f
    = .refusal r .tooLong (detailOf f.serving) ⟨some f.serving, some f.carried, none, some f.length⟩ := if_pos long

variable (fits : f.length ≤ (s.service f.serving).limit.toNat)
include fits

theorem lastSteps_portDown (down : (s.port f.egress).state ≠ .forward) : s.lastSteps r h f
    = .refusal r .portDown (detailOf f.serving) ⟨some f.serving, some f.carried, none, some f.length⟩ := by
  rw [State.lastSteps, if_neg (Nat.not_lt.mpr fits), if_pos down]

variable (up : (s.port f.egress).state = .forward)
include up

theorem lastSteps_noRecord (request : h.kind.isRequest = true) (full : s.calls.freeList = []) : s.lastSteps r h f
    = .refusal r .noRecord (detailOf f.addressed) ⟨some f.serving, some f.carried, some f.egress, some f.length⟩ := by
  rw [State.lastSteps, if_neg (Nat.not_lt.mpr fits), if_neg (not_not.mpr up), if_pos ⟨request, full⟩]

theorem lastSteps_forward (room : h.kind.isRequest = true → s.calls.freeList ≠ []) : s.lastSteps r h f = .forward r f := by
  rw [State.lastSteps, if_neg (Nat.not_lt.mpr fits), if_neg (not_not.mpr up), if_neg fun full => room full.1 full.2]

end

theorem lastSteps_ne_access (s : State) (r : RuleIx) (h : Header) (f : Forwarding) (d : Half) (g : Progress) :
    s.lastSteps r h f ≠ .refusal r .access d g := by
  unfold State.lastSteps
  split
  · simp
  · split
    · simp
    · split <;> simp

/-- A frame that step 6 lets through is refused ACCESS by no later step (R28). -/
theorem serviceStage_ne_access {s : State} {r : RuleIx} {h : Header} {ring : RingNo} {len : Nat} {a : SvcIx}
    (entry : s.addressedEntry h = some a) (usable : s.usable a) (online : s.offlineEntry a = none)
    (permitted : s.accessPermitted (s.rule r) (s.service a) h.kind ring = true) (d : Half) (g : Progress) :
    s.serviceStage r h ring len ≠ .refusal r .access d g := by
  cases failure : s.ringFailure a ring with
  | some x => simp [serviceStage_ringFailed entry usable online permitted failure]
  | none =>
    rw [serviceStage_ringPassed entry usable online permitted failure]
    exact lastSteps_ne_access s r h _ d g

/-! ### What has passed every step (R28) -/

theorem lastSteps_eq_forward {s : State} {r r' : RuleIx} {h : Header} {f f' : Forwarding}
    (settled : s.lastSteps r h f = .forward r' f') : r' = r ∧ f' = f ∧ f.length ≤ (s.service f.serving).limit.toNat
      ∧ (s.port f.egress).state = .forward ∧ (h.kind.isRequest = true → s.calls.freeList ≠ []) := by
  unfold State.lastSteps at settled
  split at settled
  · contradiction
  · next fits =>
    split at settled
    · contradiction
    · next up =>
      split at settled
      · contradiction
      · next room =>
        obtain ⟨rfl, rfl⟩ := Settled.forward.inj settled
        exact ⟨rfl, rfl, Nat.not_lt.mp fits, not_not.mp up, fun request full => room ⟨request, full⟩⟩

theorem serviceStage_eq_forward {s : State} {r r' : RuleIx} {h : Header} {ring : RingNo} {len : Nat} {f : Forwarding}
    (settled : s.serviceStage r h ring len = .forward r' f) : ∃ a, s.addresses h a ∧ s.usable a ∧ s.offlineEntry a = none
      ∧ s.accessPermitted (s.rule r) (s.service a) h.kind ring = true ∧ s.ringFailure a ring = none
      ∧ s.lastSteps r h (s.forwardingOf a h ring len) = .forward r' f := by
  unfold State.serviceStage at settled
  split at settled
  · contradiction
  · next a entry =>
    split at settled
    · contradiction
    · next usable =>
      split at settled
      · contradiction
      · next online =>
        split at settled
        · next permitted =>
          split at settled
          · contradiction
          · next passed =>
            exact ⟨a, addresses_of_addressedEntry entry, usable_iff.mpr usable, online, permitted, passed, settled⟩
        · contradiction

theorem ruleStage_eq_forward {s : State} {r r' : RuleIx} {h : Header} {ring : RingNo} {f : Forwarding}
    (settled : s.ruleStage r h ring = .forward r' f) : (s.rule r).verdict = .forward
      ∧ (s.rule r).minLen.toNat ≤ h.length.toNat ∧ h.kind ≠ .reply
      ∧ s.serviceStage r h ring (outgoingLength (s.rule r) h.length.toNat) = .forward r' f := by
  unfold State.ruleStage at settled
  split at settled
  · contradiction
  · split at settled <;> contradiction
  · next verdict =>
    split at settled
    · split at settled <;> contradiction
    · next long =>
      split at settled
      · contradiction
      · next asks => exact ⟨verdict, Nat.not_lt.mp long, asks, settled⟩

theorem judgeArrival_eq_forward {s : State} {p : Port} {h : Header} {r : RuleIx} {f : Forwarding}
    (settled : s.judgeArrival p h = .forward r f) : (s.port p).state = .forward ∧ h.dst ≠ s.settings.gsn
      ∧ ∃ r', s.scan p h (s.effectiveRing p h) = some r' ∧ s.ruleStage r' h (s.effectiveRing p h) = .forward r f := by
  unfold State.judgeArrival at settled
  split at settled
  · contradiction
  · next foreign =>
    split at settled
    · contradiction
    · next r' matched =>
      obtain ⟨up, foreign⟩ := not_or.mp foreign
      exact ⟨not_not.mp up, foreign, r', matched, settled⟩

/-! ### What the addressed entry makes of a frame (R22, R36, R42) -/

section
variable {s : State} {a : SvcIx} (h : Header) (ring : RingNo) (len : Nat)

theorem servingEntry_gate (gate : (s.service a).kind = .gate) : s.servingEntry a = (s.service a).target := if_pos gate

theorem servingEntry_self (other : (s.service a).kind ≠ .gate) : s.servingEntry a = a := if_neg other

theorem carriedRing_direct (direct : (s.service a).kind = .direct) : s.carriedRing a ring = ring := by
  simp [State.carriedRing, direct]

theorem carriedRing_shared (shared : (s.service a).kind = .shared) :
    s.carriedRing a ring = if ring ≤ (s.service a).ring then (s.service a).ring else ring := by
  simp [State.carriedRing, shared, ringMax]

theorem carriedRing_gate (gate : (s.service a).kind = .gate) :
    s.carriedRing a ring = (s.service (s.servingEntry a)).ring := by
  simp [State.carriedRing, gate]

theorem forwardingOf_gate (gate : (s.service a).kind = .gate) : s.forwardingOf a h ring len
    = ⟨a, (s.service a).target, (s.service (s.service a).target).ring, (s.service (s.service a).target).port,
      (s.service (s.service a).target).station, (s.service a).entrySvc, min len ((s.service a).words.toNat * 4)⟩ := by
  simp [State.forwardingOf, State.truncatedLength, carriedRing_gate, servingEntry_gate, gate]

theorem forwardingOf_other (other : (s.service a).kind ≠ .gate) :
    s.forwardingOf a h ring len = ⟨a, a, s.carriedRing a ring, (s.service a).port, h.dst, h.svc, len⟩ := by
  simp [State.forwardingOf, State.truncatedLength, servingEntry_self, other]

end

end Sys2Proof.Machine

open Sys2Proof Sys2Proof.Machine

/-- Settles O23: the addressed entry is the one found, and each step in turn settles the frame or lets it through. -/
theorem serviceStageTakesStepsInOrder : Obligations.ServiceStageTakesStepsInOrder := by
  intro s r h ring len asks out found
  refine ⟨fun unaddressed => serviceStage_unaddressed (addressedEntry_eq_none unaddressed), fun a addressed only => ?_⟩
  intro e v serving usable access carried n short
  have entry : s.addressedEntry h = some a := addressedEntry_eq_some addressed only
  have access_iff : s.accessPermitted (s.rule r) e h.kind ring = true ↔ access := accessPermitted_iff s _ e ring asks
  have usable_iff : s.usable a ↔ usable := forall_congr' fun gate => by
    rw [targetUsable_iff, show serving = s.service (s.service a).target from congrArg s.service (if_pos gate)]
  refine ⟨fun unusable => ?_, fun use absent => ?_, fun use present absent => ?_, fun use present presentServing => ?_⟩
  · exact serviceStage_unusable entry (mt usable_iff.mp unusable)
  · exact serviceStage_offline entry (usable_iff.mpr use) (offlineEntry_addressed absent)
  · exact serviceStage_offline entry (usable_iff.mpr use) (offlineEntry_serving present absent)
  · have use := usable_iff.mpr use
    have online : s.offlineEntry a = none := (offlineEntry_eq_none_iff s a).mpr ⟨present, presentServing⟩
    refine ⟨fun denied => ?_, fun permitted ringed outer => ?_, fun permitted gate inner below => ?_,
      fun permitted inner above => ?_⟩
    · exact serviceStage_denied entry use online (mt access_iff.mp denied)
    · exact serviceStage_ringFailed entry use online (access_iff.mpr permitted) (ringFailure_addressed ringed outer)
    · exact serviceStage_ringFailed entry use online (access_iff.mpr permitted) (ringFailure_serving gate inner below)
    · have passed : out = s.lastSteps r h (s.forwardingOf a h ring len) :=
        serviceStage_ringPassed entry use online (access_iff.mpr permitted)
          ((ringFailure_eq_none_iff s a ring).mpr ⟨inner, above⟩)
      rw [passed]
      refine ⟨fun long => ?_, fun fits down => ?_, fun fits up request full => ?_, fun fits up room => ?_⟩
      · exact lastSteps_tooLong r long
      · exact lastSteps_portDown r fits down
      · exact lastSteps_noRecord r fits up request full
      · exact lastSteps_forward r fits up room

/-- Settles O28: what is forwarded has been let through by every stage, and by every step of the service stage. -/
theorem onlyPermittedFramesAreForwarded : Obligations.OnlyPermittedFramesAreForwarded := by
  intro s p h r f settled ring a v out
  obtain ⟨up, foreign, r', matched, settled⟩ := judgeArrival_eq_forward settled
  obtain ⟨verdict, long, asks, settled⟩ := ruleStage_eq_forward settled
  obtain ⟨i, ⟨valid, station, svcLo, svcHi⟩, usable, online, permitted, passed, settled⟩ := serviceStage_eq_forward settled
  obtain ⟨rfl, same, fits, egressUp, room⟩ := lastSteps_eq_forward settled
  have length : outgoingLength (s.rule r) h.length.toNat = out := by
    simp only [out, outgoingLength]
    cases (s.rule r).fixLen <;> rfl
  rw [length] at same fits egressUp
  rw [← same] at fits egressUp
  obtain rfl : f.addressed = i := same ▸ rfl
  have serving : f.serving = s.servingEntry f.addressed := congrArg Forwarding.serving same
  have egress : f.egress = v.port := (congrArg Forwarding.egress same).trans (by simp only [v, serving]; rfl)
  obtain ⟨present, presentServing⟩ := (offlineEntry_eq_none_iff s _).mp online
  obtain ⟨inner, above⟩ := (ringFailure_eq_none_iff s _ ring).mp passed
  rw [← serving] at presentServing above
  have access := (accessPermitted_iff s (s.rule r) a ring asks).mp permitted
  have through (other : a.kind ≠ .gate) :
      f = ⟨f.addressed, f.addressed, s.carriedRing f.addressed ring, a.port, h.dst, h.svc, out⟩ :=
    same.trans (forwardingOf_other h ring out other)
  refine ⟨up, foreign, asks, matched, verdict, long, valid, station, svcLo, svcHi, present, presentServing, fun command => ?_,
    fun notice => ?_, fun direct => ?_, fun shared => ?_, fun gate => ?_, fun other => ?_, egress, fits, egressUp, room⟩
  · simpa [command] using access
  · simpa [notice] using access
  · have through := through (by simp [direct])
    exact ⟨congrArg Forwarding.serving through, inner (by simp [a, direct]),
      (congrArg Forwarding.carried through).trans (carriedRing_direct ring direct)⟩
  · have through := through (by simp [shared])
    exact ⟨congrArg Forwarding.serving through, (congrArg Forwarding.carried through).trans (carriedRing_shared ring shared)⟩
  · have target : f.serving = a.target := serving.trans (servingEntry_gate gate)
    obtain ⟨targetValid, targetKind, -, -⟩ := (targetUsable_iff s a).mp (usable gate)
    rw [← target] at targetValid targetKind
    have gated := same.trans (forwardingOf_gate h ring out gate)
    rw [← target] at gated
    exact ⟨target, targetValid, targetKind, inner (by simp [a, gate]), above gate, congrArg Forwarding.carried gated,
      congrArg Forwarding.dst gated, congrArg Forwarding.svc gated, congrArg Forwarding.length gated⟩
  · have through := through other
    exact ⟨congrArg Forwarding.dst through, congrArg Forwarding.svc through, congrArg Forwarding.length through⟩

/-- Settles O29: step 6 lets the frame through or settles it ACCESS, and no step behind it settles a frame ACCESS. -/
theorem accessOfQueriesAndNotices : Obligations.AccessOfQueriesAndNotices := by
  intro s r h ring len a entry usable online
  have denied (access : ¬ s.accessPermitted (s.rule r) (s.service a) h.kind ring = true) :
      ∃ g, s.serviceStage r h ring len = .refusal r .access (detailOf a) g :=
    ⟨_, serviceStage_denied entry usable online access⟩
  have permitted (access : s.accessPermitted (s.rule r) (s.service a) h.kind ring = true) (d : Half) (g : Progress) :
      s.serviceStage r h ring len ≠ .refusal r .access d g := serviceStage_ne_access entry usable online access d g
  refine ⟨fun query => ?_, fun notice gate => ?_, fun notice other => ⟨fun both => ?_, fun one => ?_⟩, fun command => ?_,
    fun refused _ => ?_⟩
  · exact permitted (by simp [State.accessPermitted, query])
  · exact denied (by simp [State.accessPermitted, notice, gate])
  · exact permitted (by simp [State.accessPermitted, notice, other, both])
  · exact denied (by simpa [State.accessPermitted, notice, other] using one)
  · refine ⟨fun both => ?_, fun one => ?_⟩
    · exact permitted (by simpa [State.accessPermitted, command] using both)
    · exact denied (by simpa [State.accessPermitted, command] using one)
  · exact denied (by simp [refused])
end

section
/-! Decisions that refuse (R43 to R46): what a matched decision adds to its primary outcome, and the refusal procedure. -/

namespace Sys2Proof.Machine
open Sys2Proof

/-! ### A decision that matched a rule (R7, R18) -/

theorem callsOpened_mirrorCopy (s : State) (p : Port) (b : BufIx) (r : RuleIx) (o : Byte) :
    (s.mirrorCopy p b r o).events.counters.callsOpened = s.events.counters.callsOpened := by
  rcases mirrorCopy_cases s p b r o with e | ⟨m, e⟩ | e <;> rw [e]
  · rfl
  · show (s.raise _).events.counters.callsOpened = _
    rw [(onlyFlags_raise s _).counters]

/-- Behind the primary outcome of a matched decision come only its mirror copy and the release of the arrived frame's hold, which
answer nobody and open no call. -/
theorem exec_decision_matched {s : State} {p : Port} {b : BufIx} {bs : List BufIx} {x : Settled} {r : RuleIx}
    (run : s.resetAsserted = false) (front : (s.port p).awaiting = b :: bs)
    (settled : s.judgeArrival p (Header.decode (s.buffer b).image) = x) (matched : x.matchedRule = some r) :
    ∃ t, exec (.decision p) s = .next t
      ∧ AnswersNobody ((s.takesFront p bs).primary p b (Header.decode (s.buffer b).image) x).1 t
      ∧ t.events.counters.callsOpened
        = ((s.takesFront p bs).primary p b (Header.decode (s.buffer b).image) x).1.events.counters.callsOpened := by
  refine ⟨_, exec_decision run front, ?_⟩
  rw [settled, applySettled_matched matched]
  have released := onlyHolding_release (((s.takesFront p bs).primary p b (Header.decode (s.buffer b).image) x).1.mirrorCopy p b r
    ((s.takesFront p bs).primary p b (Header.decode (s.buffer b).image) x).2) b
  refine ⟨(answersNobody_mirrorCopy _ p b r _).trans (.ofHolding released), ?_⟩
  rw [released.counters, callsOpened_mirrorCopy]

theorem accepts_of_ports {s t : State} (ports : t.ports = s.ports) (tables : t.tables = s.tables) (p : Port) (k : QueueId) :
    t.accepts p k = s.accepts p k := by
  unfold State.accepts State.port State.queueRec State.settings
  rw [ports, tables]

theorem accepts_takesFront (s : State) (p q : Port) (bs : List BufIx) (k : QueueId) :
    (s.takesFront p bs).accepts q k = s.accepts q k := by
  cases k with
  | data d =>
    have fill : (look ((s.takesFront p bs).port q).data d).length = (look (s.port q).data d).length :=
      port_takesFront_eq (fun x => (look x.data d).length) (fun _ _ => rfl) s p q bs
    simp only [State.accepts, state_takesFront, fill]
    rfl
  | g =>
    have fill : ((s.takesFront p bs).port q).gq = (s.port q).gq := port_takesFront_eq PortSt.gq (fun _ _ => rfl) s p q bs
    simp only [State.accepts, state_takesFront, fill]
  | m =>
    have fill : ((s.takesFront p bs).port q).mq = (s.port q).mq := port_takesFront_eq PortSt.mq (fun _ _ => rfl) s p q bs
    simp only [State.accepts, state_takesFront, fill]
    rfl

/-! ### Deliveries and replies the gateway makes (R43, R67, R73) -/

/-- From s to t nothing but queue k of port p, flags and hold counts changed. -/
structure OnlyQueue (p : Port) (k : QueueId) (s t : State) : Prop where
  awaiting : ∀ q, (t.port q).awaiting = (s.port q).awaiting
  queue : ∀ q j, q ≠ p ∨ j ≠ k → t.queue q j = s.queue q j
  calls : t.calls = s.calls
  capture : t.events.capture = s.events.capture
  counters : t.events.counters = s.events.counters
  flagged : ∀ f, s.flagged f → t.flagged f

theorem onlyQueue_ofFlags {s t : State} (h : OnlyFlags s t) (p : Port) (k : QueueId) : OnlyQueue p k s t :=
  ⟨fun q => by rw [h.port], fun q j _ => h.queue q j, h.calls, h.capture, h.counters, h.flagged⟩

theorem ports_holdOpt (s : State) (b : Option BufIx) : (s.holdOpt b).ports = s.ports := by cases b <;> rfl

theorem calls_holdOpt (s : State) (b : Option BufIx) : (s.holdOpt b).calls = s.calls := by cases b <;> rfl

theorem events_holdOpt (s : State) (b : Option BufIx) : (s.holdOpt b).events = s.events := by cases b <;> rfl

theorem port_of_ports {s t : State} (h : t.ports = s.ports) (p : Port) : t.port p = s.port p := by rw [State.port, h]; rfl

theorem queue_of_ports {s t : State} (h : t.ports = s.ports) (p : Port) (k : QueueId) : t.queue p k = s.queue p k := by
  rw [State.queue, port_of_ports h]
  rfl

theorem awaiting_setQueue (s : State) (p q : Port) (k : QueueId) (es : List QueueEntry) :
    ((s.setQueue p k es).port q).awaiting = (s.port q).awaiting := by
  rw [State.setQueue, State.port_modPort]
  split
  · next same => rw [setQueue_awaiting, same]
  · rfl

section
variable {s t : State} {p : Port} {k : QueueId} {e : QueueEntry}

theorem onlyQueue_deliver (delivered : s.deliver p k e = some t) : OnlyQueue p k s t := by
  obtain ⟨-, rfl⟩ := deliver_eq_some.mp delivered
  refine ⟨fun q => ?_, fun q j other => ?_, calls_holdOpt _ _, ?_, ?_, fun f set => ?_⟩
  · rw [port_of_ports (ports_holdOpt _ _), awaiting_setQueue]
  · rw [queue_of_ports (ports_holdOpt _ _), State.queue_setQueue, if_neg]
    rintro ⟨rfl, rfl⟩
    simp at other
  · rw [events_holdOpt]
    rfl
  · rw [events_holdOpt]
    rfl
  · rw [State.flagged, State.flagSet, events_holdOpt]
    exact set

/-- R73: a delivered entry stands at the back of its queue. -/
theorem queue_delivered (delivered : s.deliver p k e = some t) : t.queue p k = s.queue p k ++ [e] := by
  obtain ⟨-, rfl⟩ := deliver_eq_some.mp delivered
  rw [queue_of_ports (ports_holdOpt _ _), State.queue_setQueue, if_pos ⟨rfl, rfl⟩]

theorem onlyQueue_offerReply (s : State) (p : Port) (e : QueueEntry) : OnlyQueue p .g s (s.offerReply p e) := by
  unfold State.offerReply
  split
  · next delivered => exact onlyQueue_deliver delivered
  · exact onlyQueue_ofFlags (onlyFlags_raise s _) p .g

theorem queue_offerReply_accepted (accepted : s.accepts p .g = true) : (s.offerReply p e).queue p .g = s.queue p .g ++ [e] := by
  unfold State.offerReply
  split
  · next delivered => exact queue_delivered delivered
  · next refused => simp [deliver_eq_none, accepted] at refused

theorem offerReply_lost (refused : s.accepts p .g = false) : s.offerReply p e = s.raise (.event .gwReplyLost) := by
  rw [State.offerReply, deliver_eq_none.mpr refused]

end

/-! ### The refusal procedure (R43 to R46) -/

/-- R45, R46: the refusal on record, before any reply: the capture, the count and the flag. -/
def State.refusalTold (s : State) (p : Port) (h : Header) (st : Status) (d : Half) : State :=
  ((s.setCapture ⟨p, h.src, h.dst, h.svc, h.kind, st, d⟩).modCount (fun c => { c with refused := c.refused + 1 })).raiseOpt
    (refusalFlag st)

theorem onlyFlags_raiseOpt (s : State) (e : Option EventFlag) : OnlyFlags s (s.raiseOpt e) := by
  cases e with
  | none => exact .refl s
  | some e => exact onlyFlags_raise s _

section
variable (s : State) (p : Port) {h : Header} (st : Status) (d : Half)

theorem onlyFlags_refusalTold : OnlyFlags ((s.setCapture ⟨p, h.src, h.dst, h.svc, h.kind, st, d⟩).modCount
    (fun c => { c with refused := c.refused + 1 })) (s.refusalTold p h st d) := onlyFlags_raiseOpt _ _

theorem accepts_refusalTold (q : Port) (k : QueueId) : (s.refusalTold p h st d).accepts q k = s.accepts q k :=
  accepts_of_ports (onlyFlags_refusalTold s p st d).ports (onlyFlags_refusalTold s p st d).tables q k

theorem flagged_refusalTold {st : Status} {e : EventFlag} (named : refusalFlag st = some e) :
    (s.refusalTold p h st d).flagged (.event e) := by
  rw [State.refusalTold, named]
  exact flagged_raise _ _

theorem refuse_request (request : h.kind.isRequest = true) : s.refuse p h st d = (s.refusalTold p h st d).offerReply p
    (emptyReply (s.effectiveRing p h) h.src h.dst h.svc h.tag d st.code) := if_pos request

theorem refuse_other (other : ¬ h.kind.isRequest = true) : s.refuse p h st d = s.refusalTold p h st d := if_neg other

/-- Behind the record of a refusal comes at most the reply. -/
theorem onlyQueue_refuse : OnlyQueue p .g (s.refusalTold p h st d) (s.refuse p h st d) := by
  by_cases request : h.kind.isRequest = true
  · rw [refuse_request s p st d request]
    exact onlyQueue_offerReply _ p _
  · rw [refuse_other s p st d request]
    exact onlyQueue_ofFlags (.refl _) p .g

end

end Sys2Proof.Machine

open Sys2Proof Sys2Proof.Machine

/-- Settles O25: the refusal goes on record, the reply joins G or is lost, and what comes behind answers nobody. -/
theorem decisionRefuses : Obligations.DecisionRefuses := by
  intro s p b bs r st d g run front h settled
  obtain ⟨t, taken, quiet, -⟩ := exec_decision_matched run front settled rfl
  let s₀ := s.takesFront p bs
  have quiet : AnswersNobody (s₀.refuse p h st d) t := quiet
  have told : OnlyFlags _ (s₀.refusalTold p h st d) := onlyFlags_refusalTold s₀ p st d
  have reply : OnlyQueue p .g (s₀.refusalTold p h st d) (s₀.refuse p h st d) := onlyQueue_refuse s₀ p st d
  have accepts : (s₀.refusalTold p h st d).accepts p .g = s.accepts p .g :=
    (accepts_refusalTold s₀ p st d p .g).trans (accepts_takesFront s p p bs .g)
  have queueTold (q : Port) (k : QueueId) : (s₀.refusalTold p h st d).queue q k = s.queue q k :=
    (told.queue q k).trans (queue_takesFront s p q k bs)
  have named {e : EventFlag} (flag : refusalFlag st = some e) : t.flagged (.event e) :=
    quiet.flagged _ (reply.flagged _ (flagged_refusalTold s₀ p d flag))
  refine ⟨t, taken, ?_, ?_, ?_, ?_, ?_, ?_, fun q k => ?_, fun is => named (is ▸ rfl), fun is => named (is ▸ rfl),
    fun is => named (is ▸ rfl), fun is => named (is ▸ rfl), fun request accepted => ?_, fun request refused => ?_,
    fun notice q => ?_⟩
  · rw [quiet.awaiting, reply.awaiting, told.port]
    show (s₀.port p).awaiting = bs
    simp [s₀, State.takesFront]
  · rw [quiet.refused, reply.counters, told.counters]
    rfl
  · rw [quiet.discarded, reply.counters, told.counters]
    rfl
  · rw [quiet.forwarded, reply.counters, told.counters]
    rfl
  · rw [quiet.capture, reply.capture, told.capture]
    rfl
  · rw [quiet.calls, reply.calls, told.calls]
    rfl
  · rw [quiet.queue q _ (by simp), reply.queue q _ (by simp), queueTold]
  · rw [quiet.queue p _ (by simp), refuse_request s₀ p st d request, queue_offerReply_accepted (accepts.trans accepted),
      queueTold]
    rfl
  · rw [quiet.queue p _ (by simp), refuse_request s₀ p st d request, offerReply_lost (accepts.trans refused),
      (onlyFlags_raise _ _).queue, queueTold]
    refine ⟨rfl, quiet.flagged _ ?_⟩
    rw [refuse_request s₀ p st d request, offerReply_lost (accepts.trans refused)]
    exact flagged_raise _ _
  · rw [quiet.queue q _ (by simp), refuse_other s₀ p st d (by simp [notice, Kind.isRequest]), queueTold]
end

section
/-! Decisions that forward (R40 to R42, R48, R51, R52, R59, R73): the record that is opened, the delivery, and the statement. -/

namespace Sys2Proof.Machine
open Sys2Proof

/-! ### When a queue accepts a delivery (R73) -/

theorem inService_iff (x : PortState) : x.inService = true ↔ x = .listen ∨ x = .forward := by
  cases x <;> simp [PortState.inService]

theorem accepts_data_iff (s : State) (p : Port) (d : DataQ) : s.accepts p (.data d) = true ↔
    (s.port p).state = .forward ∧ (s.queue p (.data d)).length < (s.queueRec p d).depth.toNat := by
  simp [State.accepts, State.queue, PortSt.queue]

theorem accepts_g_iff (s : State) (p : Port) : s.accepts p .g = true ↔
    ((s.port p).state = .listen ∨ (s.port p).state = .forward) ∧ (s.queue p .g).length < 8 := by
  simp only [State.accepts, Bool.and_eq_true, decide_eq_true_eq, inService_iff]
  rfl

theorem accepts_m_iff (s : State) (p : Port) : s.accepts p .m = true ↔ s.settings.monitorPort = some p
    ∧ (s.port p).state = .forward ∧ (s.queue p .m).length < s.settings.mDepth.toNat := by
  simp [State.accepts, State.queue, PortSt.queue, and_assoc]

/-! ### The opening of a record (R48, R51, R165) -/

/-- Record i with the fields of r, opened for a call. -/
def openedAs (s : State) (i : CallIx) (r : CallRecord) : CallRecord := { r with state := .queued, gen := (s.record i).gen }

/-- The opening of a record before the judgement of CALLS_HIGH. -/
def State.opening (s : State) (i : CallIx) (r : CallRecord) : State :=
  ({ s with calls := ⟨put s.calls.records i (openedAs s i r), s.calls.freeList.tail⟩ } : State).modCount
    (fun c => { c with callsOpened := c.callsOpened + 1 })

section
variable (s : State) (i : CallIx) (r : CallRecord)

theorem onlyFlags_openRecord : OnlyFlags (s.opening i r) (s.openRecord i r) := onlyFlags_judge _ _ _

theorem ports_openRecord : (s.openRecord i r).ports = s.ports := (onlyFlags_openRecord s i r).ports

theorem freeList_openRecord : (s.openRecord i r).calls.freeList = s.calls.freeList.tail := by
  rw [(onlyFlags_openRecord s i r).calls]
  rfl

theorem record_openRecord (j : CallIx) :
    (s.openRecord i r).record j = if i = j then openedAs s i r else s.record j :=
  ((onlyFlags_openRecord s i r).record j).trans (look_put _ _ _ _)

theorem capture_openRecord : (s.openRecord i r).events.capture = s.events.capture := (onlyFlags_openRecord s i r).capture

theorem counters_openRecord : (s.openRecord i r).events.counters
    = { s.events.counters with callsOpened := s.events.counters.callsOpened + 1 } := (onlyFlags_openRecord s i r).counters

theorem accepts_openRecord (p : Port) (k : QueueId) : (s.openRecord i r).accepts p k = s.accepts p k :=
  accepts_of_ports (ports_openRecord s i r) (onlyFlags_openRecord s i r).tables p k

variable {s i}

/-- R48: the opening of a FREE record raises the records in use by 1. -/
theorem recordsInUse_openRecord (free : (s.record i).state = .free) :
    (s.openRecord i r).recordsInUse = s.recordsInUse + 1 := by
  have free : (look s.calls.records i).state = .free := free
  rw [State.recordsInUse, (onlyFlags_openRecord s i r).calls]
  show (put s.calls.records i (openedAs s i r)).toList.countP _ = _
  rw [countP_put]
  simp [free, openedAs, State.recordsInUse]

/-- R164, R165: the records in use come up to HIGH_MARK. -/
theorem flagged_openRecord_rise (free : (s.record i).state = .free)
    (reaches : s.recordsInUse + 1 = s.settings.highMark.toNat) : (s.openRecord i r).flagged (.rise .callsHigh) := by
  have below : s.levelHolds .callsHigh = false := decide_eq_false (by omega)
  have risen : (s.opening i r).levelHolds .callsHigh = true := by
    rw [← (onlyFlags_openRecord s i r).levelHolds]
    refine decide_eq_true ?_
    rw [recordsInUse_openRecord r free, State.settings_of_tables (onlyFlags_openRecord s i r).tables]
    exact reaches.ge
  show ((s.opening i r).judge .callsHigh (s.levelHolds .callsHigh)).flagged _
  rw [below]
  exact flagged_judge_rise risen

end

/-! ### The freeing of a record (R48, R52, R165) -/

/-- The freeing of record i before the judgement of CALLS_HIGH. -/
def State.freeing (s : State) (i : CallIx) : State :=
  { s with calls := ⟨put s.calls.records i (freedRecord (s.record i)), s.calls.freeList ++ [i]⟩ }

section
variable {s : State} {i : CallIx} (inUse : (s.record i).inUse = true)
include inUse

theorem freeRecord_eq : s.freeRecord i = (s.freeing i).judge .callsHigh (s.levelHolds .callsHigh) := if_pos inUse

theorem onlyFlags_freeRecord : OnlyFlags (s.freeing i) (s.freeRecord i) := by
  rw [freeRecord_eq inUse]
  exact onlyFlags_judge _ _ _

/-- R164, R165: the records in use fall from HIGH_MARK. -/
theorem flagged_freeRecord_fall (atMark : s.recordsInUse = s.settings.highMark.toNat) :
    (s.freeRecord i).flagged (.fall .callsHigh) := by
  have used : (s.record i).state ≠ .free := by simpa [CallRecord.inUse] using inUse
  have counted : 0 < s.recordsInUse :=
    List.countP_pos_iff.mpr ⟨s.record i, Vector.mem_toList_iff.mpr (Vector.getElem_mem i.isLt), by simpa using used⟩
  have fewer : (s.freeing i).recordsInUse = s.recordsInUse - 1 := by
    show (put s.calls.records i (freedRecord (s.record i))).toList.countP _ = _
    rw [countP_put]
    have used : (look s.calls.records i).state ≠ .free := used
    simp [used, freedRecord, State.recordsInUse]
  have held : s.levelHolds .callsHigh = true := decide_eq_true atMark.ge
  have fallen : (s.freeing i).levelHolds .callsHigh = false := by
    refine decide_eq_false ?_
    rw [fewer, show (s.freeing i).settings = s.settings from rfl]
    omega
  rw [freeRecord_eq inUse, held]
  exact flagged_judge_fall fallen

end

/-! ### The forwarding of a request (R40, R42, R59) -/

/-- The entry of a request that is forwarded under the tag of record i. -/
def State.requestEntry (s : State) (b : BufIx) (h : Header) (r : RuleIx) (f : Forwarding) (i : CallIx) : QueueEntry :=
  newEntry .forwarded (forwardedHeader (s.rule r) h f (recordTag (s.record i).gen i)) (some b)
    (some (recordTag (s.record i).gen i)) (s.rule r).oneShot none

/-- Record i is opened for a request that is to be forwarded. -/
def State.openedFor (s : State) (p : Port) (h : Header) (f : Forwarding) (i : CallIx) : State :=
  s.openRecord i (s.openedRecord p h f)

section
variable {s : State} {i : CallIx} {is : List CallIx} (front : s.calls.freeList = i :: is)
  (p : Port) (b : BufIx) (h : Header) (r : RuleIx) (f : Forwarding)
include front

theorem forwardRequest_accepted (accepted : s.accepts f.egress (.data (s.rule r).qclass) = true) :
    ∃ u, (s.openedFor p h f i).deliver f.egress (.data (s.rule r).qclass) (s.requestEntry b h r f i) = some u
      ∧ s.forwardRequest p b h r f = (u.forwarded, 0) := by
  have delivered := deliver_eq_some.mpr
    ⟨(accepts_openRecord s i (s.openedRecord p h f) f.egress (.data (s.rule r).qclass)).trans accepted,
      Eq.refl (((s.openedFor p h f i).setQueue _ _ (_ ++ [s.requestEntry b h r f i])).holdOpt _)⟩
  refine ⟨_, delivered, ?_⟩
  unfold State.forwardRequest
  rw [front]
  dsimp only
  unfold State.openedFor State.requestEntry at delivered
  rw [delivered]
  rfl

theorem forwardRequest_refused (refused : s.accepts f.egress (.data (s.rule r).qclass) = false) :
    s.forwardRequest p b h r f
      = (((s.openedFor p h f i).freeRecord i).sendCallReply ((s.openedFor p h f i).record i) .queueFull,
        Status.queueFull.code) := by
  have undelivered : (s.openedFor p h f i).deliver f.egress (.data (s.rule r).qclass) (s.requestEntry b h r f i) = none :=
    deliver_eq_none.mpr ((accepts_openRecord s i _ f.egress _).trans refused)
  unfold State.forwardRequest
  rw [front]
  dsimp only
  unfold State.openedFor State.requestEntry at undelivered
  rw [undelivered]
  rfl

end

/-! ### What forwarding leaves alone -/

/-- From s to t no port but the given one was answered, and of the data queues only the given one was joined. -/
structure ForwardsOnly (p egress : Port) (d : DataQ) (s t : State) : Prop where
  awaiting : ∀ q, (t.port q).awaiting = (s.port q).awaiting
  data : ∀ q k, q ≠ egress ∨ k ≠ d → t.queue q (.data k) = s.queue q (.data k)
  g : ∀ q, q ≠ p → t.queue q .g = s.queue q .g

theorem forwardsOnly_ofPorts {s t : State} (ports : t.ports = s.ports) (p egress : Port) (d : DataQ) :
    ForwardsOnly p egress d s t :=
  ⟨fun q => by rw [port_of_ports ports], fun q k _ => queue_of_ports ports q _, fun q _ => queue_of_ports ports q _⟩

theorem forwardsOnly_forwarded (s : State) (p egress : Port) (d : DataQ) : ForwardsOnly p egress d s s.forwarded :=
  forwardsOnly_ofPorts (s := s) (t := s.forwarded) rfl p egress d

theorem ForwardsOnly.trans {p egress : Port} {d : DataQ} {s t u : State} (h : ForwardsOnly p egress d s t)
    (k : ForwardsOnly p egress d t u) : ForwardsOnly p egress d s u where
  awaiting := fun q => (k.awaiting q).trans (h.awaiting q)
  data := fun q j other => (k.data q j other).trans (h.data q j other)
  g := fun q other => (k.g q other).trans (h.g q other)

theorem forwardsOnly_ofData {p egress : Port} {d : DataQ} {s t : State} (h : OnlyQueue egress (.data d) s t) :
    ForwardsOnly p egress d s t :=
  ⟨h.awaiting, fun q k other => h.queue q _ (by simpa using other), fun q _ => h.queue q _ (.inr (by simp))⟩

theorem forwardsOnly_ofReply {p egress : Port} {d : DataQ} {s t : State} (h : OnlyQueue p .g s t) :
    ForwardsOnly p egress d s t :=
  ⟨h.awaiting, fun q k _ => h.queue q _ (.inr (by simp)), fun q other => h.queue q _ (.inl other)⟩

theorem forwardsOnly_forwardNotice (s : State) (p : Port) (b : BufIx) (h : Header) (r : RuleIx) (f : Forwarding) :
    ForwardsOnly p f.egress (s.rule r).qclass s (s.forwardNotice b h r f).1 := by
  unfold State.forwardNotice
  split
  · next u delivered =>
    exact (forwardsOnly_ofData (onlyQueue_deliver delivered)).trans (forwardsOnly_forwarded u _ _ _)
  · exact forwardsOnly_ofPorts (s := s) (t := s.discarded) rfl _ _ _

theorem record_openedFor (s : State) (p : Port) (h : Header) (f : Forwarding) (i : CallIx) :
    (s.openedFor p h f i).record i = openedAs s i (s.openedRecord p h f) :=
  (record_openRecord s i _ i).trans (if_pos rfl)

theorem inUse_openedFor (s : State) (p : Port) (h : Header) (f : Forwarding) (i : CallIx) :
    ((s.openedFor p h f i).record i).inUse = true := by
  rw [record_openedFor]
  rfl

theorem ports_openedFor (s : State) (p : Port) (h : Header) (f : Forwarding) (i : CallIx) :
    (s.openedFor p h f i).ports = s.ports := ports_openRecord s i _

theorem settings_openedFor (s : State) (p : Port) (h : Header) (f : Forwarding) (i : CallIx) :
    (s.openedFor p h f i).settings = s.settings := State.settings_of_tables (onlyFlags_openRecord s i _).tables

theorem ports_freedAgain (s : State) (p : Port) (h : Header) (f : Forwarding) (i : CallIx) :
    ((s.openedFor p h f i).freeRecord i).ports = s.ports :=
  (onlyFlags_freeRecord (inUse_openedFor s p h f i)).ports.trans (ports_openedFor s p h f i)

/-- R67: a QUEUE_FULL call reply goes to the request's own arrival port. -/
theorem onlyQueue_callReply (s : State) (p : Port) (h : Header) (f : Forwarding) (i : CallIx) (st : Status) (t : State) :
    OnlyQueue p .g t (t.sendCallReply ((s.openedFor p h f i).record i) st) := by
  rw [record_openedFor]
  exact onlyQueue_offerReply t p _

theorem forwardsOnly_forwardRequest (s : State) (p : Port) (b : BufIx) (h : Header) (r : RuleIx) (f : Forwarding) :
    ForwardsOnly p f.egress (s.rule r).qclass s (s.forwardRequest p b h r f).1 := by
  cases front : s.calls.freeList with
  | nil =>
    rw [State.forwardRequest, front]
    exact forwardsOnly_ofPorts rfl _ _ _
  | cons i is =>
    cases accepted : s.accepts f.egress (.data (s.rule r).qclass) with
    | true =>
      obtain ⟨u, delivered, outcome⟩ := forwardRequest_accepted front p b h r f accepted
      rw [outcome]
      exact (forwardsOnly_ofPorts (ports_openedFor s p h f i) _ _ _).trans
        ((forwardsOnly_ofData (onlyQueue_deliver delivered)).trans (forwardsOnly_forwarded u _ _ _))
    | false =>
      rw [forwardRequest_refused front p b h r f accepted]
      exact (forwardsOnly_ofPorts (ports_freedAgain s p h f i) _ _ _).trans
        (forwardsOnly_ofReply (onlyQueue_callReply s p h f i _ _))

theorem forwardsOnly_primary (s : State) (p : Port) (b : BufIx) (h : Header) (r : RuleIx) (f : Forwarding) :
    ForwardsOnly p f.egress (s.rule r).qclass s (s.primary p b h (.forward r f)).1 := by
  by_cases request : h.kind.isRequest = true
  · rw [State.primary, if_pos request]
    exact forwardsOnly_forwardRequest s p b h r f
  · rw [State.primary, if_neg request]
    exact forwardsOnly_forwardNotice s p b h r f

/-! ### The outcomes of forwarding (R40, R41, R59) -/

/-- R40: a request whose data queue accepts it: what the state w behind its delivery holds. -/
structure RequestQueued (s w : State) (p : Port) (b : BufIx) (h : Header) (r : RuleIx) (f : Forwarding) (i : CallIx)
    (is : List CallIx) : Prop where
  freeList : w.calls.freeList = is
  record : ∀ j, w.record j = if i = j then openedAs s i (s.openedRecord p h f) else s.record j
  queue : w.queue f.egress (.data (s.rule r).qclass)
    = s.queue f.egress (.data (s.rule r).qclass) ++ [s.requestEntry b h r f i]
  rise : (s.record i).state = .free → s.recordsInUse + 1 = s.settings.highMark.toNat → w.flagged (.rise .callsHigh)
  counters : w.events.counters = { s.events.counters with
    callsOpened := s.events.counters.callsOpened + 1, forwarded := s.events.counters.forwarded + 1 }

/-- R59: a request whose data queue refuses it: what the state w behind its call reply holds. -/
structure RequestReturned (s w : State) (p : Port) (h : Header) (f : Forwarding) (i : CallIx) (is : List CallIx) : Prop where
  freeList : w.calls.freeList = is ++ [i]
  record : w.record i = freedRecord (openedAs s i (s.openedRecord p h f))
  reply : callReplySent s w (openedAs s i (s.openedRecord p h f)) .queueFull
  flags : (s.record i).state = .free → s.recordsInUse + 1 = s.settings.highMark.toNat →
    w.flagged (.rise .callsHigh) ∧ w.flagged (.fall .callsHigh)
  counters : w.events.counters = { s.events.counters with callsOpened := s.events.counters.callsOpened + 1 }
  capture : w.events.capture = s.events.capture

section
variable {s : State} {i : CallIx} {is : List CallIx} (front : s.calls.freeList = i :: is)
  (p : Port) (b : BufIx) (h : Header) (r : RuleIx) (f : Forwarding)
include front

theorem requestQueued_forwardRequest (accepted : s.accepts f.egress (.data (s.rule r).qclass) = true) :
    RequestQueued s (s.forwardRequest p b h r f).1 p b h r f i is := by
  obtain ⟨u, delivered, outcome⟩ := forwardRequest_accepted front p b h r f accepted
  have joined := onlyQueue_deliver delivered
  rw [outcome]
  constructor
  · show u.calls.freeList = is
    rw [joined.calls, State.openedFor, freeList_openRecord, front]
    rfl
  · intro j
    rw [← record_openRecord]
    show look u.calls.records j = _
    rw [joined.calls]
    rfl
  · show u.queue _ _ = _
    rw [queue_delivered delivered, queue_of_ports (ports_openedFor s p h f i)]
  · exact fun free reaches => joined.flagged _ (flagged_openRecord_rise _ free reaches)
  · show { u.events.counters with forwarded := u.events.counters.forwarded + 1 } = _
    rw [joined.counters, State.openedFor, counters_openRecord]

theorem requestReturned_forwardRequest (refused : s.accepts f.egress (.data (s.rule r).qclass) = false) :
    RequestReturned s (s.forwardRequest p b h r f).1 p h f i is := by
  rw [forwardRequest_refused front p b h r f refused]
  have inUse := inUse_openedFor s p h f i
  have freed := onlyFlags_freeRecord inUse
  have replied := onlyQueue_callReply s p h f i .queueFull ((s.openedFor p h f i).freeRecord i)
  obtain ⟨freedSelf, -, freeList, -⟩ := freeRecord_of_inUse inUse
  constructor
  · show (State.sendCallReply _ _ _).calls.freeList = _
    rw [replied.calls, freeList, State.openedFor, freeList_openRecord, front]
    rfl
  · show look (State.sendCallReply _ _ _).calls.records i = _
    rw [replied.calls, ← record_openedFor]
    exact freedSelf
  · have sent := callReplySent_sendCallReply ((s.openedFor p h f i).freeRecord i) ((s.openedFor p h f i).record i) .queueFull
    have tables : ((s.openedFor p h f i).freeRecord i).tables = s.tables :=
      freed.tables.trans (onlyFlags_openRecord s i _).tables
    simp only [callReplySent, accepts_of_ports (ports_freedAgain s p h f i) tables,
      queue_of_ports (ports_freedAgain s p h f i), record_openedFor] at sent ⊢
    exact sent
  · intro free reaches
    have rise : (s.openedFor p h f i).flagged (.rise .callsHigh) := flagged_openRecord_rise _ free reaches
    have atMark : (s.openedFor p h f i).recordsInUse = (s.openedFor p h f i).settings.highMark.toNat := by
      rw [settings_openedFor]
      exact (recordsInUse_openRecord _ free).trans reaches
    exact ⟨replied.flagged _ (freed.flagged _ rise), replied.flagged _ (flagged_freeRecord_fall inUse atMark)⟩
  · show (State.sendCallReply _ _ _).events.counters = _
    rw [replied.counters, freed.counters]
    exact counters_openRecord s i _
  · show (State.sendCallReply _ _ _).events.capture = _
    rw [replied.capture, freed.capture]
    exact capture_openRecord s i _

end

/-- The entry of a notice that is forwarded. -/
def State.noticeEntry (s : State) (b : BufIx) (h : Header) (r : RuleIx) (f : Forwarding) : QueueEntry :=
  newEntry .forwarded (forwardedHeader (s.rule r) h f h.tag) (some b) none (s.rule r).oneShot none

theorem forwardNotice_accepted {s : State} (b : BufIx) (h : Header) (r : RuleIx) (f : Forwarding)
    (accepted : s.accepts f.egress (.data (s.rule r).qclass) = true) :
    ∃ u, s.deliver f.egress (.data (s.rule r).qclass) (s.noticeEntry b h r f) = some u
      ∧ s.forwardNotice b h r f = (u.forwarded, 0) := by
  have delivered := deliver_eq_some.mpr ⟨accepted, Eq.refl ((s.setQueue _ _ (_ ++ [s.noticeEntry b h r f])).holdOpt _)⟩
  refine ⟨_, delivered, ?_⟩
  unfold State.noticeEntry at delivered
  rw [State.forwardNotice, delivered]
  rfl

theorem forwardNotice_refused {s : State} (b : BufIx) (h : Header) (r : RuleIx) (f : Forwarding)
    (refused : s.accepts f.egress (.data (s.rule r).qclass) = false) :
    s.forwardNotice b h r f = (s.discarded, discardOutcome) := by
  rw [State.forwardNotice, deliver_eq_none.mpr refused]

end Sys2Proof.Machine

open Sys2Proof Sys2Proof.Machine

/-- Settles O26: the record is opened and the request queued, or freed again behind a call reply; a notice is queued or discarded;
what comes behind the delivery answers nobody. -/
theorem decisionForwards : Obligations.DecisionForwards := by
  refine ⟨fun s p => ⟨accepts_data_iff s p, accepts_g_iff s p, accepts_m_iff s p⟩, ?_⟩
  intro s p b bs r f run front h e k settled
  obtain ⟨t, taken, quiet, opened⟩ := exec_decision_matched run front settled rfl
  let s₀ := s.takesFront p bs
  have accepts : s₀.accepts f.egress (.data e.qclass) = s.accepts f.egress (.data e.qclass) := accepts_takesFront s p _ bs _
  refine ⟨⟨t, taken, ?_, fun q d other => ?_, fun q other => ?_⟩, fun i is request free => ?_, fun notice => ?_⟩
  · rw [quiet.awaiting, (forwardsOnly_primary s₀ p b h r f).awaiting]
    simp [s₀, State.takesFront]
  · rw [quiet.queue q _ (by simp), (forwardsOnly_primary s₀ p b h r f).data q d other, queue_takesFront]
  · rw [quiet.queue q _ (by simp), (forwardsOnly_primary s₀ p b h r f).g q other, queue_takesFront]
  · intro tag rec_ reachesMark
    have primary : s₀.primary p b h (.forward r f) = s₀.forwardRequest p b h r f := if_pos request
    rw [primary] at quiet opened
    have records (j : CallIx) : t.record j = (s₀.forwardRequest p b h r f).1.record j := by
      rw [State.record, quiet.calls]
      rfl
    refine ⟨fun accepted => ⟨t, taken, ?_⟩, fun refused => ⟨t, taken, ?_⟩⟩
    · have queued : RequestQueued s₀ _ p b h r f i is :=
        requestQueued_forwardRequest (s := s₀) free p b h r f (accepts.trans accepted)
      refine ⟨quiet.calls ▸ queued.freeList, ?_, fun j other => ?_, ?_, fun ⟨unused, reaches⟩ => ?_, ?_, ?_, ?_, ?_⟩
      · rw [records, queued.record, if_pos rfl]
        rfl
      · rw [records, queued.record, if_neg (Ne.symm other)]
        rfl
      · rw [quiet.queue _ _ (by simp)]
        exact queued.queue.trans (by rw [queue_takesFront]; rfl)
      · exact quiet.flagged _ (queued.rise unused reaches)
      · rw [quiet.forwarded, queued.counters]
        rfl
      · rw [opened, queued.counters]
        rfl
      · rw [quiet.refused, queued.counters]
        rfl
      · rw [quiet.discarded, queued.counters]
        rfl
    · have returned : RequestReturned s₀ _ p h f i is :=
        requestReturned_forwardRequest (s := s₀) free p b h r f (accepts.trans refused)
      refine ⟨quiet.calls ▸ returned.freeList, ?_, ⟨fun room => ?_, fun full => ?_⟩, fun ⟨unused, reaches⟩ => ?_, ?_, ?_, ?_, ?_⟩
      · rw [records, returned.record]
        rfl
      · rw [quiet.queue _ _ (by simp)]
        exact (returned.reply.1 ((accepts_takesFront s p _ bs _).trans room)).trans (by rw [queue_takesFront]; rfl)
      · obtain ⟨same, lost⟩ := returned.reply.2 ((accepts_takesFront s p _ bs _).trans full)
        refine ⟨?_, quiet.flagged _ lost⟩
        rw [quiet.queue _ _ (by simp)]
        exact same.trans (queue_takesFront s p _ _ bs)
      · obtain ⟨rise, fall⟩ := returned.flags unused reaches
        exact ⟨quiet.flagged _ rise, quiet.flagged _ fall⟩
      · rw [quiet.forwarded, returned.counters]
        rfl
      · rw [opened, returned.counters]
        rfl
      · rw [quiet.refused, returned.counters]
        rfl
      · rw [quiet.capture, returned.capture]
        rfl
  · have primary : s₀.primary p b h (.forward r f) = s₀.forwardNotice b h r f := if_neg (by simp [notice, Kind.isRequest])
    rw [primary] at quiet
    refine ⟨fun accepted => ⟨t, taken, ?_⟩, fun refused => ⟨t, taken, ?_⟩⟩
    · obtain ⟨u, delivered, outcome⟩ := forwardNotice_accepted (s := s₀) b h r f (accepts.trans accepted)
      rw [outcome] at quiet
      have joined := onlyQueue_deliver delivered
      refine ⟨quiet.calls.trans joined.calls, ?_, ?_⟩
      · rw [quiet.queue _ _ (by simp), ← notice]
        exact (queue_delivered delivered).trans (by rw [queue_takesFront]; rfl)
      · rw [quiet.forwarded]
        exact congrArg (· + 1) (congrArg GatewayCounters.forwarded joined.counters)
    · rw [forwardNotice_refused (s := s₀) b h r f (accepts.trans refused)] at quiet
      refine ⟨quiet.calls, ?_, ?_, ?_⟩
      · rw [quiet.discarded]
        rfl
      · rw [quiet.forwarded]
        rfl
      · rw [quiet.capture]
        rfl
end

section
/-! The free list stays exact (R50): what every operation may do to the call table, and that no such change upsets the list. -/

namespace Sys2Proof.Machine
open Sys2Proof

/-! ### What may become of a call table (R51, R52, R60) -/

/-- The call table c becomes d by opening records at the front of the free list, freeing records in use and making QUEUED ones
WAITING. -/
inductive CallMoves : CallTable → CallTable → Prop
  | refl (c : CallTable) : CallMoves c c
  | opened {c : CallTable} {i : CallIx} {is : List CallIx} (r : CallRecord) (front : c.freeList = i :: is)
      (queued : r.state = .queued) : CallMoves c ⟨put c.records i r, is⟩
  | freed {c : CallTable} {i : CallIx} (used : (look c.records i).state ≠ .free) :
      CallMoves c ⟨put c.records i (freedRecord (look c.records i)), c.freeList ++ [i]⟩
  | delivered {c : CallTable} {i : CallIx} (queued : (look c.records i).state = .queued) :
      CallMoves c ⟨put c.records i { look c.records i with state := .waiting }, c.freeList⟩
  | trans {c d e : CallTable} (first : CallMoves c d) (next : CallMoves d e) : CallMoves c e

/-- R50, of the call table alone, as FreeListExact says it of a state. -/
def CallTable.Exact (c : CallTable) : Prop :=
  c.freeList.Nodup ∧ ∀ i : CallIx, i ∈ c.freeList ↔ (look c.records i).state = .free

/-- R51: the record opened leaves the front of the list, where it stood once. -/
theorem exact_opened {c : CallTable} {i : CallIx} {is : List CallIx} {r : CallRecord} (h : c.Exact)
    (front : c.freeList = i :: is) (queued : r.state = .queued) : CallTable.Exact ⟨put c.records i r, is⟩ := by
  obtain ⟨nodup, listed⟩ := h
  rw [front] at nodup listed
  obtain ⟨alone, nodup⟩ := List.nodup_cons.mp nodup
  refine ⟨nodup, fun j => ?_⟩
  show j ∈ is ↔ (look (put c.records i r) j).state = .free
  rw [look_put]
  split
  · next same => simp [← same, alone, queued]
  · next other => simpa [Ne.symm other] using listed j

/-- R52: the record freed joins the end of the list, where it did not stand. -/
theorem exact_freed {c : CallTable} {i : CallIx} (h : c.Exact) (used : (look c.records i).state ≠ .free) :
    CallTable.Exact ⟨put c.records i (freedRecord (look c.records i)), c.freeList ++ [i]⟩ := by
  obtain ⟨nodup, listed⟩ := h
  have absent : i ∉ c.freeList := fun mem => used ((listed i).mp mem)
  refine ⟨nodup.append (List.nodup_singleton i) (by simpa using absent), fun j => ?_⟩
  show j ∈ c.freeList ++ [i] ↔ (look (put c.records i _) j).state = .free
  rw [look_put]
  split
  · next same => simp [same, freedRecord]
  · next other => simpa [Ne.symm other] using listed j

/-- R60: a record in use stays in use, and the list stays as it is. -/
theorem exact_delivered {c : CallTable} {i : CallIx} (h : c.Exact) (queued : (look c.records i).state = .queued) :
    CallTable.Exact ⟨put c.records i { look c.records i with state := .waiting }, c.freeList⟩ := by
  obtain ⟨nodup, listed⟩ := h
  refine ⟨nodup, fun j => ?_⟩
  show j ∈ c.freeList ↔ (look (put c.records i _) j).state = .free
  rw [look_put, listed j]
  split
  · next same => simp [← same, queued]
  · rfl

theorem exact_of_callMoves {c d : CallTable} (moves : CallMoves c d) (h : c.Exact) : d.Exact := by
  induction moves with
  | refl => exact h
  | opened r front queued => exact exact_opened h front queued
  | freed used => exact exact_freed h used
  | delivered queued => exact exact_delivered h queued
  | trans _ _ first next => exact next (first h)

/-- From s to t nothing became of the call table but such moves. -/
def MovesCalls (s t : State) : Prop := CallMoves s.calls t.calls

namespace MovesCalls

theorem refl (s : State) : MovesCalls s s := CallMoves.refl _

theorem trans {s t u : State} (h : MovesCalls s t) (k : MovesCalls t u) : MovesCalls s u := CallMoves.trans h k

theorem ofCalls {s t : State} (same : t.calls = s.calls) : MovesCalls s t := by
  unfold MovesCalls
  rw [same]
  exact CallMoves.refl _

/-- Behind a change that leaves the calls as they are. -/
theorem after {s t u : State} (k : MovesCalls t u) (same : t.calls = s.calls) : MovesCalls s u := (ofCalls same).trans k

/-- Before a change that leaves the calls as they are. -/
theorem before {s t u : State} (h : MovesCalls s t) (same : u.calls = t.calls) : MovesCalls s u := h.trans (ofCalls same)

theorem ite {s t u : State} {c : Prop} [Decidable c] (h : MovesCalls s t) (k : MovesCalls s u) :
    MovesCalls s (if c then t else u) := by
  split
  · exact h
  · exact k

theorem foldl {α : Type} {f : State → α → State} (h : ∀ s a, MovesCalls s (f s a)) (l : List α) (s : State) :
    MovesCalls s (l.foldl f s) := by
  induction l generalizing s with
  | nil => exact refl s
  | cons a l ih => exact (h s a).trans (ih (f s a))

theorem freeListExact {s t : State} (h : MovesCalls s t) (k : FreeListExact s) : FreeListExact t :=
  exact_of_callMoves h k

end MovesCalls

/-! ### What leaves the call table alone -/

theorem calls_foldl {α : Type} {f : State → α → State} (h : ∀ s a, (f s a).calls = s.calls) (l : List α) (s : State) :
    (l.foldl f s).calls = s.calls := by
  induction l generalizing s with
  | nil => rfl
  | cons a l ih => exact (ih (f s a)).trans (h s a)

theorem calls_raise (s : State) (f : Flag) : (s.raise f).calls = s.calls := (onlyFlags_raise s f).calls

theorem calls_judge (s : State) (l : Level) (was : Bool) : (s.judge l was).calls = s.calls := (onlyFlags_judge s l was).calls

theorem calls_judgeHold (s : State) (p : Port) : (s.judgeHold p).calls = s.calls := (onlyHolding_judgeHold s p).calls

theorem calls_release (s : State) (b : BufIx) : (s.release b).calls = s.calls := (onlyHolding_release s b).calls

theorem calls_deliver {s t : State} {p : Port} {k : QueueId} {e : QueueEntry} (delivered : s.deliver p k e = some t) :
    t.calls = s.calls := (onlyQueue_deliver delivered).calls

theorem calls_offerReply (s : State) (p : Port) (e : QueueEntry) : (s.offerReply p e).calls = s.calls :=
  (onlyQueue_offerReply s p e).calls

theorem calls_reportRestart (s : State) : s.reportRestart.calls = s.calls := by
  unfold State.reportRestart
  split <;> rfl

theorem calls_entryLeft (s : State) (e : QueueEntry) : (s.entryLeft e).calls = s.calls := by
  have released (t : State) : (t.releaseOpt e.buffer).calls = t.calls := by
    cases e.buffer with
    | none => rfl
    | some b => exact calls_release t b
  unfold State.entryLeft
  rw [released]
  split
  · exact calls_reportRestart s
  · rfl

theorem calls_abortEntry (p : Port) (s : State) (e : QueueEntry) : (s.abortEntry p e).calls = s.calls := by
  unfold State.abortEntry
  split <;> exact calls_entryLeft _ e

theorem calls_abortQueue (s : State) (p : Port) (q : QueueId) : (s.abortQueue p q).calls = s.calls :=
  calls_foldl (calls_abortEntry p) _ _

theorem calls_withdrawStep (s : State) (p : Port) (tag : Tag) : (s.withdrawStep p tag).calls = s.calls := by
  have withdrawn (s : State) (q : DataQ) : (s.withdrawFrom p tag q).calls = s.calls := calls_foldl calls_entryLeft _ _
  unfold State.withdrawStep
  split
  · exact calls_foldl withdrawn _ _
  · rfl

theorem calls_flushEntry (p : Port) (s : State) (e : QueueEntry) : (s.flushEntry p e).calls = s.calls := by
  unfold State.flushEntry
  split <;> exact calls_entryLeft s e

theorem calls_dropMgmt (s : State) (p : Port) : (s.dropMgmt p).calls = s.calls :=
  calls_foldl (fun s (e : MgmtEntry) => calls_release s e.buffer) _ _

theorem calls_judgePort (s : State) (p : Port) (before : State) : (s.judgePort p before).calls = s.calls :=
  (onlyFlags_judgePort s p before).calls

theorem calls_lowerScore (s : State) (p : Port) : (s.lowerScore p).calls = s.calls := by
  unfold State.lowerScore
  split
  · exact calls_judge _ _ _
  · rfl

theorem calls_clearTally (s : State) (p : Port) : (s.clearTally p).calls = s.calls := by
  unfold State.clearTally
  split <;> rfl

theorem calls_lineUnrecognised (s : State) (p : Port) : (s.lineUnrecognised p).calls = s.calls := by
  unfold State.lineUnrecognised
  split
  · rfl
  · exact calls_clearTally _ p

theorem calls_lineLoss (s : State) (p : Port) : (s.lineLoss p).calls = s.calls :=
  (calls_clearTally _ p).trans (calls_judge _ _ _)

theorem calls_admitFrame (s : State) (p : Port) (b : BufIx) (image payload : List Byte) (m : Bool) :
    (s.admitFrame p b image payload m).calls = s.calls := by
  have queued (t : State) : (t.queueAdmitted p b m).calls = t.calls := by
    unfold State.queueAdmitted
    split <;> rfl
  unfold State.admitFrame
  rw [calls_judgeHold, queued, calls_lowerScore]
  exact calls_judge _ _ _

theorem calls_admission (s : State) (p : Port) (image payload : List Byte) : (s.admission p image payload).calls = s.calls := by
  unfold State.admission
  dsimp only
  split
  · rfl
  · split
    · rfl
    · split
      · rfl
      · split
        · exact calls_raise _ _
        · split
          · rfl
          · split
            · rfl
            · exact calls_admitFrame s p _ _ _ _

theorem calls_attemptStart (s : State) (p : Port) : (s.attemptStart p).calls = s.calls := by
  unfold State.attemptStart
  split
  · split
    · rfl
    · unfold State.startAttempt
      split <;> rfl
  · rfl

theorem calls_frameSent (s : State) (p : Port) : (s.frameSent p).calls = s.calls := by
  unfold State.frameSent
  split
  · rfl
  · split
    · rfl
    · split <;> rfl

theorem calls_symbolAfter (s : State) (p : Port) : (s.symbolAfter p).calls = s.calls := by
  have chosen : (s.nextSymbol p).calls = s.calls := by
    unfold State.nextSymbol
    split
    · rfl
    · split
      · rfl
      · split <;> rfl
  unfold State.symbolAfter
  split
  · rfl
  · rfl
  · rfl
  · exact chosen
  · exact chosen

theorem calls_symbolEnd (s : State) (p : Port) : (s.symbolEnd p).calls = s.calls := by
  unfold State.symbolEnd
  split
  · split
    · rfl
    · exact (calls_symbolAfter _ p).trans (calls_frameSent s p)
  · exact calls_symbolAfter s p

theorem calls_claimFor (s : State) (e : QueueEntry) (c : Tag → Claim) : (s.claimFor e c).calls = s.calls := by
  unfold State.claimFor
  split <;> rfl

theorem calls_completeAck (s : State) (p : Port) : (s.completeAck p).calls = s.calls := by
  have timed (t : State) (q : QueueId) : (t.startInterval p q).calls = t.calls := by cases q <;> rfl
  unfold State.completeAck
  split
  · rfl
  · split
    · rfl
    · rw [calls_lowerScore, timed, calls_claimFor]
      exact calls_entryLeft _ _

theorem calls_completeFailure (s : State) (p : Port) : (s.completeFailure p).calls = s.calls := by
  unfold State.completeFailure
  split
  · rfl
  · split
    · rfl
    · dsimp only
      split
      · rw [calls_claimFor]
        exact calls_entryLeft _ _
      · rfl

theorem calls_partnerHoldExpiry (s : State) (p : Port) : (s.partnerHoldExpiry p).calls = s.calls := by
  unfold State.partnerHoldExpiry
  split <;> rfl

theorem calls_intervalExpiry (s : State) (p : Port) (q : DataQ) : (s.intervalExpiry p q).calls = s.calls := by
  unfold State.intervalExpiry
  split <;> rfl

theorem calls_holdResendExpiry (s : State) (p : Port) : (s.holdResendExpiry p).calls = s.calls := by
  unfold State.holdResendExpiry
  split <;> rfl

theorem calls_refuse (s : State) (p : Port) (h : Header) (st : Status) (d : Half) : (s.refuse p h st d).calls = s.calls :=
  (onlyQueue_refuse s p st d).calls.trans (onlyFlags_refusalTold s p st d).calls

theorem calls_forwardNotice (s : State) (b : BufIx) (h : Header) (r : RuleIx) (f : Forwarding) :
    (s.forwardNotice b h r f).1.calls = s.calls := by
  unfold State.forwardNotice
  split
  · next u delivered =>
    show u.calls = _
    exact calls_deliver delivered
  · rfl

theorem calls_deliverReply (s : State) (b : BufIx) (h : Header) (r : RuleIx) (c : CallRecord) (len : Nat) :
    (s.deliverReply b h r c len).1.calls = s.calls := by
  unfold State.deliverReply
  split
  · next u delivered =>
    show u.calls = _
    exact calls_deliver delivered
  · exact calls_raise s _

theorem calls_mirrorCopy (s : State) (p : Port) (b : BufIx) (r : RuleIx) (o : Byte) :
    (s.mirrorCopy p b r o).calls = s.calls := (answersNobody_mirrorCopy s p b r o).calls

theorem calls_noticeAttempt (s : State) : s.noticeAttempt.calls = s.calls := by
  unfold State.noticeAttempt
  split
  · split
    · rfl
    · split
      · rfl
      · next u delivered =>
        rw [calls_judge]
        show u.calls = _
        unfold State.noticeDelivery at delivered
        exact (calls_deliver delivered).trans rfl
  · rfl

theorem calls_noticeStep (s : State) (f : Flag) : (s.noticeStep f).calls = s.calls := by
  unfold State.noticeStep
  split
  · split
    · exact calls_noticeAttempt _
    · rfl
  · rfl

theorem calls_settleTriggers (s : State) : s.settleTriggers.calls = s.calls := calls_foldl calls_noticeStep s.wires.triggers s

theorem calls_writeReply (s : State) (b : BufIx) (l : List Byte) : (s.writeReply b l).calls = s.calls := by
  unfold State.writeReply
  split <;> rfl

theorem calls_offerManagement (s : State) (q : Request) (e : QueueEntry) : (s.offerManagement q e).calls = s.calls := by
  unfold State.offerManagement
  split
  · next delivered => exact calls_deliver delivered
  · split
    · exact (calls_reportRestart _).trans (calls_raise s _)
    · exact calls_raise s _

theorem calls_sendOwed (s : State) (r : Option CallRecord) : (s.sendOwed r).calls = s.calls := by
  cases r with
  | none => rfl
  | some r => exact calls_offerReply s _ _

/-! ### The moves of the call table itself (R51, R52, R60, R61, R62, R64) -/

theorem movesCalls_freeRecord (s : State) (i : CallIx) : MovesCalls s (s.freeRecord i) := by
  by_cases used : (s.record i).inUse = true
  · have used' : (s.record i).state ≠ .free := by simpa [CallRecord.inUse] using used
    have freed : CallMoves s.calls (s.freeing i).calls := .freed used'
    exact MovesCalls.before freed (onlyFlags_freeRecord used).calls
  · rw [State.freeRecord, if_neg used]
    exact .refl s

theorem movesCalls_openRecord {s : State} {i : CallIx} {is : List CallIx} (front : s.calls.freeList = i :: is)
    (r : CallRecord) : MovesCalls s (s.openRecord i r) := by
  have opened : CallMoves s.calls (s.opening i r).calls := by
    have := CallMoves.opened (openedAs s i r) front rfl
    rwa [show is = s.calls.freeList.tail by rw [front]; rfl] at this
  exact MovesCalls.before opened (onlyFlags_openRecord s i r).calls

theorem movesCalls_takeDelivered (s : State) (tag : Tag) : MovesCalls s (s.takeDelivered tag) := by
  unfold State.takeDelivered
  split
  · exact .refl s
  · split
    · next queued => exact CallMoves.delivered queued
    · exact .refl s

theorem movesCalls_freed_answered (s : State) (i : CallIx) (r : CallRecord) (st : Status) :
    MovesCalls s ((s.freeRecord i).sendCallReply r st) :=
  (movesCalls_freeRecord s i).before (calls_offerReply _ _ _)

theorem movesCalls_withdrawn_freed (s : State) (i : CallIx) : MovesCalls s ((s.withdrawIfQueued i).freeRecord i) := by
  have same : (s.withdrawIfQueued i).calls = s.calls := by
    unfold State.withdrawIfQueued
    split <;> rfl
  exact (movesCalls_freeRecord _ i).after same

theorem movesCalls_takeUndeliverable (s : State) (tag : Tag) (abort : Bool) : MovesCalls s (s.takeUndeliverable tag abort) := by
  unfold State.takeUndeliverable
  split
  · exact .refl s
  · exact .ite (.ite (movesCalls_freed_answered s _ _ _) ((movesCalls_freed_answered s _ _ _).before (calls_raise _ _))) (.refl s)

theorem movesCalls_portDownRecord (p : Port) (s : State) (i : CallIx) : MovesCalls s (s.portDownRecord p i) := by
  unfold State.portDownRecord
  exact .ite (movesCalls_freed_answered s i _ _)
    (.ite (movesCalls_withdrawn_freed s i) (.ite (movesCalls_freeRecord s i) (.refl s)))

theorem movesCalls_takeClaim (s : State) (c : Claim) : MovesCalls s (s.takeClaim c) := by
  cases c with
  | delivered p tag => exact movesCalls_takeDelivered s tag
  | undeliverable p tag abort => exact movesCalls_takeUndeliverable s tag abort
  | targetPortDown p tag =>
    show MovesCalls s (s.takeTargetPortDown p tag)
    unfold State.takeTargetPortDown
    split
    · exact .refl s
    · exact movesCalls_portDownRecord p s _
  | portDown p => exact .foldl (movesCalls_portDownRecord p) _ s

theorem movesCalls_takeOldest (s : State) (sort : Claim → Bool) : MovesCalls s (s.takeOldest sort) := by
  unfold State.takeOldest
  split
  · exact .refl s
  · exact (movesCalls_takeClaim _ _).after rfl

theorem movesCalls_settleDemands (s : State) (p : Port) : MovesCalls s (s.settleDemands p) :=
  (MovesCalls.foldl movesCalls_takeClaim _ _).after rfl

theorem movesCalls_callExpiry (s : State) (i : CallIx) : MovesCalls s (s.callExpiry i) := by
  have expired (s : State) : MovesCalls s (s.expire i) :=
    (movesCalls_withdrawn_freed s i).before ((calls_raise _ _).trans (calls_offerReply _ _ _))
  unfold State.callExpiry
  exact .ite ((expired _).after rfl) (.refl s)

/-! ### Port states and the line, which may take waiting claims first (R128) -/

theorem movesCalls_leaveService (s : State) (p : Port) (target : PortState) : MovesCalls s (s.leaveService p target) := by
  refine (movesCalls_settleDemands s p).before ?_
  unfold State.leaveService
  dsimp only
  rw [calls_dropMgmt, State.addClaim_calls, calls_foldl (calls_flushEntry p), calls_judgePort]
  rfl

theorem movesCalls_enterService (s : State) (p : Port) (target : PortState) : MovesCalls s (s.enterService p target) := by
  refine (movesCalls_settleDemands s p).before ?_
  unfold State.enterService
  dsimp only
  rw [calls_judgeHold, calls_judgePort]
  rfl

theorem movesCalls_transition (s : State) (p : Port) (target : PortState) : MovesCalls s (s.transition p target) := by
  unfold State.transition
  exact .ite (.ite (.ofCalls rfl) (movesCalls_enterService s p target)) (movesCalls_leaveService s p target)

theorem movesCalls_raiseScore (s : State) (p : Port) (n : Nat) : MovesCalls s (s.raiseScore p n) := by
  unfold State.raiseScore
  exact .ite (.ite (movesCalls_leaveService s p _) (.ofCalls (calls_judge _ _ _))) (.refl s)

theorem movesCalls_recoveryRun (s : State) (p : Port) : MovesCalls s (s.recoveryRun p) := by
  unfold State.recoveryRun
  refine .ite (.ite ?_ (.ofCalls rfl)) (.refl s)
  split
  · refine .before ?_ (calls_raise _ _)
    exact .after (movesCalls_enterService _ p _) rfl
  · exact .ofCalls rfl

theorem movesCalls_handIdleRun (s : State) (p : Port) : MovesCalls s (s.handIdleRun p) :=
  (movesCalls_recoveryRun _ p).after (calls_judge _ _ _)

theorem movesCalls_lineCharacter (s : State) (p : Port) (idle : Bool) : MovesCalls s (s.lineCharacter p idle) := by
  unfold State.lineCharacter
  exact .ite (.refl s) (.ite ((movesCalls_handIdleRun _ p).after rfl) (.ofCalls rfl))

theorem movesCalls_badFrame (s : State) (p : Port) : MovesCalls s (s.badFrame p) := (movesCalls_raiseScore _ p _).after rfl

theorem movesCalls_breakReception (s : State) (p : Port) : MovesCalls s (s.breakReception p) := by
  unfold State.breakReception
  exact .ite ((movesCalls_badFrame _ p).after rfl) (.ofCalls rfl)

theorem movesCalls_receiveCharacter (s : State) (p : Port) (c : Character) : MovesCalls s (s.receiveCharacter p c) := by
  cases c with
  | start => exact (movesCalls_breakReception s p).before rfl
  | data b =>
    unfold State.receiveCharacter
    dsimp only
    split <;> exact .ofCalls rfl
  | endChar => exact .refl s
  | idleMark => exact movesCalls_breakReception s p
  | control => exact movesCalls_breakReception s p

/-- The line monitor's part in an arrival that ends the FRAME in reception. -/
theorem movesCalls_lineCharacter_ended (s : State) (p : Port) :
    MovesCalls s ((s.lineCharacter p false).setReception p .none) := (movesCalls_lineCharacter s p false).before rfl

theorem movesCalls_arriveFrame (s : State) (p : Port) (chars : List Byte) : MovesCalls s (s.arriveFrame p chars) := by
  have ended := movesCalls_lineCharacter_ended s p
  unfold State.arriveFrame
  dsimp only
  refine .ite (ended.trans ?_) ended
  unfold State.frameEnd
  exact .ite (.ofCalls (calls_admission _ p _ _)) (movesCalls_badFrame _ p)

theorem movesCalls_arriveCharacter (s : State) (p : Port) (c : Character) : MovesCalls s (s.arriveCharacter p c) := by
  unfold State.arriveCharacter
  exact .ite (.refl s) (.ite (movesCalls_arriveFrame s p [])
    ((movesCalls_receiveCharacter s p c).trans (movesCalls_lineCharacter _ p _)))

theorem movesCalls_arriveUnrecognised (s : State) (p : Port) : MovesCalls s (s.arriveUnrecognised p) := by
  unfold State.arriveUnrecognised
  exact .ite (.refl s) ((movesCalls_breakReception s p).before (calls_lineUnrecognised _ p))

theorem movesCalls_arriveLoss (s : State) (p : Port) : MovesCalls s (s.arriveLoss p) := by
  unfold State.arriveLoss
  refine .ite (.refl s) ?_
  split
  · exact .refl s
  · refine .before ?_ (calls_lineLoss _ p)
    exact .after (movesCalls_breakReception _ p) rfl

theorem movesCalls_arriveIdleRun (s : State) (p : Port) : MovesCalls s (s.arriveIdleRun p) := by
  unfold State.arriveIdleRun
  exact .ite (.refl s) ((movesCalls_breakReception s p).trans ((movesCalls_handIdleRun _ p).after rfl))

theorem movesCalls_arriveBroken (s : State) (p : Port) (i : Interruption) : MovesCalls s (s.arriveBroken p i) := by
  have ended := movesCalls_lineCharacter_ended s p
  let u := (s.lineCharacter p false).setReception p .none
  have broken : MovesCalls s (if u.receives p && ((s.lineCharacter p false).port p).reception != .passingOver
      then u.badFrame p else u) := .ite (ended.trans (movesCalls_badFrame u p)) ended
  refine broken.trans ?_
  cases i with
  | character c => exact movesCalls_arriveCharacter _ p c
  | unrecognised => exact movesCalls_arriveUnrecognised _ p
  | lossOfSignal => exact movesCalls_arriveLoss _ p

/-! ### Completions -/

theorem movesCalls_failAttempt (s : State) (p : Port) (raises : Bool) : MovesCalls s (s.failAttempt p raises) := by
  unfold State.failAttempt
  exact .ite ((movesCalls_raiseScore _ p _).after (calls_completeFailure s p)) (.ofCalls (calls_completeFailure s p))

theorem movesCalls_ackReceived (s : State) (p : Port) : MovesCalls s (s.ackReceived p) :=
  (movesCalls_arriveCharacter s p _).trans (.ite (.ofCalls (calls_completeAck _ p)) (.refl _))

theorem movesCalls_nakReceived (s : State) (p : Port) (r : NakReason) : MovesCalls s (s.nakReceived p r) :=
  (movesCalls_arriveCharacter s p _).trans (.ite (movesCalls_failAttempt _ p _) (.refl _))

theorem movesCalls_strayAnswer (s : State) (p : Port) : MovesCalls s (s.strayAnswer p) :=
  .ite (.refl s) (movesCalls_arriveCharacter s p _)

theorem movesCalls_ackWindowExpiry (s : State) (p : Port) : MovesCalls s (s.ackWindowExpiry p) := by
  unfold State.ackWindowExpiry
  split
  · exact .refl s
  · split
    · exact (movesCalls_failAttempt _ p _).after rfl
    · exact .refl s
    · exact .refl s

theorem movesCalls_holdReceived (s : State) (p : Port) (d : Byte) : MovesCalls s (s.holdReceived p d) :=
  (movesCalls_arriveCharacter s p _).trans (.ite (.ofCalls rfl) (.refl _))

/-! ### Decisions (R40, R54) -/

theorem movesCalls_forwardRequest (s : State) (p : Port) (b : BufIx) (h : Header) (r : RuleIx) (f : Forwarding) :
    MovesCalls s (s.forwardRequest p b h r f).1 := by
  unfold State.forwardRequest
  split
  · exact .refl s
  · next front =>
    have opened := movesCalls_openRecord front (s.openedRecord p h f)
    dsimp only
    split
    · next u delivered =>
      refine opened.before (u := u.forwarded) ?_
      show u.calls = _
      exact calls_deliver delivered
    · exact opened.trans (movesCalls_freed_answered _ _ _ _)

theorem movesCalls_matchReply (s : State) (p : Port) (b : BufIx) (h : Header) (r : RuleIx) (len : Nat) :
    MovesCalls s (s.matchReply p b h r len).1 := by
  unfold State.matchReply
  split
  · exact .ofCalls (calls_raise s _)
  · split
    · exact (movesCalls_withdrawn_freed s _).before (calls_deliverReply _ b h r _ len)
    · exact .ofCalls (calls_raise s _)

theorem movesCalls_primary (s : State) (p : Port) (b : BufIx) (h : Header) (x : Settled) :
    MovesCalls s (s.primary p b h x).1 := by
  cases x with
  | unscanned => exact .ofCalls rfl
  | noRule => exact .ofCalls (calls_raise s _)
  | discard r => exact .ofCalls rfl
  | shortReply r => exact .ofCalls (calls_raise s _)
  | refusal r st d g => exact .ofCalls (calls_refuse s p h st d)
  | matching r len => exact movesCalls_matchReply s p b h r len
  | forward r f =>
    by_cases request : h.kind.isRequest = true
    · rw [State.primary, if_pos request]
      exact movesCalls_forwardRequest s p b h r f
    · rw [State.primary, if_neg request]
      exact .ofCalls (calls_forwardNotice s b h r f)

theorem movesCalls_applySettled (s : State) (p : Port) (b : BufIx) (h : Header) (x : Settled) :
    MovesCalls s (s.applySettled p b h x) := by
  cases rule : x.matchedRule with
  | none =>
    cases x with
    | unscanned => exact movesCalls_primary s p b h .unscanned
    | noRule => exact movesCalls_primary s p b h .noRule
    | _ => contradiction
  | some r =>
    rw [applySettled_matched rule]
    exact (movesCalls_primary s p b h x).before (calls_mirrorCopy _ p b r _)

theorem movesCalls_decisionStep (s : State) (p : Port) : MovesCalls s (s.decisionStep p) := by
  unfold State.decisionStep
  split
  · exact .refl s
  · refine .before ?_ (calls_release _ _)
    exact .after (movesCalls_applySettled _ p _ _ _) rfl

/-! ### The management unit (R63, R126, R148) -/

theorem movesCalls_takeDemand (s : State) (d : Demand) : MovesCalls s (s.takeDemand d) := by
  cases d with
  | delivered p | undeliverable p | targetPortDown p | portDown p => exact movesCalls_takeOldest s _
  | withdraw p tag => exact .ofCalls (calls_withdrawStep s p tag)
  | notice f => exact .ofCalls (calls_noticeStep s f)

theorem movesCalls_interleave (s : State) (o : Interleaving) (owed : Option CallRecord) :
    MovesCalls s (s.interleave o owed) := by
  unfold State.interleave
  exact .ite (.foldl movesCalls_takeDemand _ s) ((MovesCalls.foldl movesCalls_takeDemand _ _).after (calls_sendOwed s owed))

theorem movesCalls_answer (gsn : Station) (o : Interleaving) (q : Request) (x : Executed) (r : Bool) :
    MovesCalls x.state (State.answer gsn o q x r) := by
  have replied := (movesCalls_interleave x.state o x.owed).before ((calls_offerManagement _ q
    (managementEntry gsn q x.status x.payload r)).trans (calls_writeReply _ q.buffer x.payload))
  unfold State.answer
  refine MovesCalls.before ?_ (calls_release _ _)
  exact .ite (replied.before (calls_sendOwed _ x.owed)) replied

theorem movesCalls_opSetPortState (s : State) (q : Request) : MovesCalls s (opSetPortState s q).state := by
  unfold opSetPortState
  split
  · exact .refl s
  · split
    · exact .refl s
    · split
      · exact .refl s
      · split
        · exact .refl s
        · split
          · exact movesCalls_transition s _ _
          · exact .refl s

theorem movesCalls_opCancelCall (s : State) (q : Request) : MovesCalls s (opCancelCall s q).state := by
  unfold opCancelCall
  split
  · exact .refl s
  · split
    · exact .refl s
    · split
      · exact movesCalls_withdrawn_freed s _
      · exact .refl s

theorem calls_opAbortQueue (s : State) (q : Request) : (opAbortQueue s q).state.calls = s.calls := by
  unfold opAbortQueue
  split
  · rfl
  · split
    · rfl
    · exact calls_abortQueue s _ _

theorem calls_opReadCounters (s : State) (q : Request) : (opReadCounters s q).state.calls = s.calls := by
  unfold opReadCounters
  split
  · rfl
  · split
    · rfl
    · split <;> (unfold doneWith; dsimp only; split <;> rfl)

theorem calls_writeSettings (s : State) (r : Settings) : (writeSettings s r).calls = s.calls := by
  have marks : (judgeMarks s r).calls = s.calls := (calls_judge _ _ _).trans (calls_judge _ _ _)
  have triggers : (takeNewTriggers s (judgeMarks s r)).calls = s.calls := (calls_foldl calls_noticeStep _ _).trans marks
  unfold writeSettings leaveMonitor
  split
  · exact triggers
  · split
    · exact triggers
    · exact (calls_abortQueue _ _ _).trans triggers

theorem calls_opWriteGateway (s : State) (q : Request) : (opWriteGateway s q).state.calls = s.calls := by
  unfold opWriteGateway
  split
  · rfl
  · split
    · rfl
    · split
      · rfl
      · exact calls_writeSettings s _

theorem calls_opWriteRule (s : State) (q : Request) : (opWriteRule s q).state.calls = s.calls := by
  unfold opWriteRule
  split <;> rfl

theorem calls_opWriteService (s : State) (q : Request) : (opWriteService s q).state.calls = s.calls := by
  unfold opWriteService
  split
  · rfl
  · split
    · rfl
    · split
      · rfl
      · split <;> rfl

theorem calls_opWritePort (s : State) (q : Request) : (opWritePort s q).state.calls = s.calls := by
  unfold opWritePort
  split
  · rfl
  · split
    · rfl
    · split
      · rfl
      · split
        · rfl
        · split <;> rfl

theorem calls_opWriteQueue (s : State) (q : Request) : (opWriteQueue s q).state.calls = s.calls := by
  unfold opWriteQueue
  split
  · split <;> rfl
  · rfl

theorem calls_opClearTable (s : State) (q : Request) : (opClearTable s q).state.calls = s.calls := by
  unfold opClearTable
  dsimp only
  split
  · split
    · rfl
    · exact State.setTables_calls s _
  · split
    · rfl
    · exact State.setTables_calls s _
  all_goals rfl

/-- Of the operations only SET PORT STATE and CANCEL CALL reach the call table. -/
theorem movesCalls_execute (op : Operation) (s : State) (q : Request) : MovesCalls s (execute op s q).state := by
  cases op with
  | identify | readState | restart => exact .ofCalls rfl
  | readTable => exact .ofCalls (congrArg State.calls (state_opReadTable s q))
  | readCall => exact .ofCalls (congrArg State.calls (state_opReadCall s q))
  | probe => exact .ofCalls (congrArg State.calls (state_opProbe s q))
  | writeRule => exact .ofCalls (calls_opWriteRule s q)
  | writeService => exact .ofCalls (calls_opWriteService s q)
  | writePort => exact .ofCalls (calls_opWritePort s q)
  | writeQueue => exact .ofCalls (calls_opWriteQueue s q)
  | writeGateway => exact .ofCalls (calls_opWriteGateway s q)
  | clearTable => exact .ofCalls (calls_opClearTable s q)
  | setPortState => exact movesCalls_opSetPortState s q
  | abortQueue => exact .ofCalls (calls_opAbortQueue s q)
  | cancelCall => exact movesCalls_opCancelCall s q
  | readEvents => exact .ofCalls (calls_settleTriggers s)
  | readCounters => exact .ofCalls (calls_opReadCounters s q)

theorem movesCalls_manage (s : State) (o : Interleaving) : MovesCalls s (s.manage o) := by
  unfold State.manage
  split
  · exact .refl s
  · exact .ofCalls (calls_release _ _)
  · exact .ofCalls ((calls_release _ _).trans (calls_raise _ _))
  · exact (movesCalls_answer _ o _ _ _).after (calls_raise s.dropHead _)
  · exact (movesCalls_answer _ o _ (refusedWith s.dropHead _) _).after rfl
  · exact ((movesCalls_execute _ s.dropHead _).trans (movesCalls_answer _ o _ _ _)).after rfl

theorem movesCalls_takeOf (op : Operation) (o : Interleaving) (s : State) : MovesCalls s (State.takeOf op o s) := by
  unfold State.takeOf
  split
  · exact .ite (movesCalls_manage s o) (.refl s)
  all_goals exact .refl s

/-! ### Every command keeps the free list exact -/

/-- R47, R50: at reset every record is FREE and stands once on the list. -/
theorem freeListExact_atReset (gsn : Station) (bringup : Port) (reception : Port → Reception) (pending : List Instr) :
    FreeListExact (State.atReset gsn bringup reception pending) := by
  refine ⟨List.nodup_finRange 128, fun i => ?_⟩
  have record : (State.atReset gsn bringup reception pending).record i = CallRecord.reset := look_replicate _ i
  simp only [record]
  exact ⟨fun _ => rfl, fun _ => List.mem_finRange i⟩

theorem freeListExact_restartAct {s : State} (h : FreeListExact s) : FreeListExact s.restartAct := by
  unfold State.restartAct
  split
  · exact freeListExact_atReset _ _ _ _
  · exact h
  · exact h

section
variable {s t : State} (h : FreeListExact s)
include h

/-- R173: a command that is taken only while the reset pin is released. -/
theorem freeListExact_running {f : State → State} (k : FreeListExact (f s)) (ran : running f s = .next t) : FreeListExact t := by
  unfold running at ran
  split at ran
  · exact Host.Outcome.next.inj ran ▸ h
  · exact Host.Outcome.next.inj ran ▸ k

theorem freeListExact_ofMoves {f : State → State} (k : ∀ s, MovesCalls s (f s)) (ran : running f s = .next t) :
    FreeListExact t := freeListExact_running h ((k s).freeListExact h) ran

theorem freeListExact_ofCalls {f : State → State} (k : ∀ s, (f s).calls = s.calls) (ran : running f s = .next t) :
    FreeListExact t := freeListExact_ofMoves h (fun s => .ofCalls (k s)) ran

/-- Every command keeps the free list exact: the two resets restore it, and every other moves the call table. -/
theorem freeListExact_exec {c : Instr} (ran : exec c s = .next t) : FreeListExact t := by
  have taken (op : Operation) (o : Interleaving) (ran : running (State.takeOf op o) s = .next t) : FreeListExact t :=
    freeListExact_ofMoves h (movesCalls_takeOf op o) ran
  cases c with
  | resetAssert => exact Host.Outcome.next.inj ran ▸ h
  | resetRelease bringup stn => exact Host.Outcome.next.inj ran ▸ freeListExact_atReset _ _ _ _
  | restartAct => exact freeListExact_running h (freeListExact_restartAct h) ran
  | frameReceived p chars => exact freeListExact_ofMoves h (movesCalls_arriveFrame · p chars) ran
  | brokenFrame p i => exact freeListExact_ofMoves h (fun s => .ite (movesCalls_arriveBroken s p i) (.refl s)) ran
  | ackReceived p => exact freeListExact_ofMoves h (movesCalls_ackReceived · p) ran
  | nakReceived p r => exact freeListExact_ofMoves h (movesCalls_nakReceived · p r) ran
  | ackWindowExpiry p => exact freeListExact_ofMoves h (movesCalls_ackWindowExpiry · p) ran
  | strayAnswer p a => exact freeListExact_ofMoves h (movesCalls_strayAnswer · p) ran
  | holdReceived p d => exact freeListExact_ofMoves h (movesCalls_holdReceived · p d) ran
  | partnerHoldExpiry p => exact freeListExact_ofCalls h (calls_partnerHoldExpiry · p) ran
  | idleRun p => exact freeListExact_ofMoves h (movesCalls_arriveIdleRun · p) ran
  | lossOfSignal p => exact freeListExact_ofMoves h (movesCalls_arriveLoss · p) ran
  | unrecognisedCharacter p => exact freeListExact_ofMoves h (movesCalls_arriveUnrecognised · p) ran
  | characterRecognised p c => exact freeListExact_ofMoves h (movesCalls_arriveCharacter · p c) ran
  | transmitterSymbolEnd p => exact freeListExact_ofCalls h (calls_symbolEnd · p) ran
  | frameSent p => exact freeListExact_ofCalls h (calls_frameSent · p) ran
  | attemptStart p => exact freeListExact_ofCalls h (calls_attemptStart · p) ran
  | intervalTimerExpiry p q => exact freeListExact_ofCalls h (calls_intervalExpiry · p q) ran
  | holdResendExpiry p => exact freeListExact_ofCalls h (calls_holdResendExpiry · p) ran
  | decision p => exact freeListExact_ofMoves h (movesCalls_decisionStep · p) ran
  | deliveredClaim p => exact freeListExact_ofMoves h (movesCalls_takeOldest · _) ran
  | undeliverableClaim p => exact freeListExact_ofMoves h (movesCalls_takeOldest · _) ran
  | targetPortDownClaim p => exact freeListExact_ofMoves h (movesCalls_takeOldest · _) ran
  | portDownClaim p => exact freeListExact_ofMoves h (movesCalls_takeOldest · _) ran
  | callExpiry i => exact freeListExact_ofMoves h (movesCalls_callExpiry · i) ran
  | withdraw p tag => exact freeListExact_ofCalls h (calls_withdrawStep · p tag) ran
  | noticeAttempt f => exact freeListExact_ofCalls h (calls_noticeStep · f) ran
  | managementTake o => exact freeListExact_ofMoves h (movesCalls_manage · o) ran
  | identify o => exact taken .identify o ran
  | readTable o => exact taken .readTable o ran
  | writeTableRule o => exact taken .writeRule o ran
  | writeTableService o => exact taken .writeService o ran
  | writeTablePort o => exact taken .writePort o ran
  | writeTableQueue o => exact taken .writeQueue o ran
  | writeTableGateway o => exact taken .writeGateway o ran
  | clearTable o => exact taken .clearTable o ran
  | readState o => exact taken .readState o ran
  | setPortState o => exact taken .setPortState o ran
  | abortQueue o => exact taken .abortQueue o ran
  | cancelCall o => exact taken .cancelCall o ran
  | readCall o => exact taken .readCall o ran
  | readEvents o => exact taken .readEvents o ran
  | readCounters o => exact taken .readCounters o ran
  | probe o => exact taken .probe o ran
  | restart o => exact taken .restart o ran

end

end Sys2Proof.Machine

open Sys2Proof Sys2Proof.Machine

/-- Settles O57: a step on an empty queue leaves the call table, and every command keeps the free list exact. -/
theorem freeListStaysExact : Obligations.FreeListStaysExact := by
  intro s t h stepped
  unfold step at stepped
  split at stepped
  · obtain rfl := Host.Outcome.next.inj stepped
    unfold State.tick
    split <;> exact h
  · next c cs _ =>
    have h' : FreeListExact { s with pending := cs } := h
    exact freeListExact_exec h' stepped
end

section
/-! How a call ends (R52, R62, R66, R67): the record freed, the withdraw sent, the requester answered; and the expiry of a call. -/

namespace Sys2Proof.Machine
open Sys2Proof

/-! ### Entries that join a queue (R67, R73) -/

/-- From s to t an entry may have joined queue k of port p; otherwise only flags and hold counts changed. -/
structure JoinsQueue (p : Port) (k : QueueId) (s t : State) : Prop extends OnlyQueue p k s t where
  timeBase : t.timeBase = s.timeBase
  tables : t.tables = s.tables
  claims : t.wires.claims = s.wires.claims
  withdraws : t.wires.withdraws = s.wires.withdraws
  state : ∀ q, (t.port q).state = (s.port q).state

theorem joinsQueue_ofFlags {s t : State} (h : OnlyFlags s t) (p : Port) (k : QueueId) : JoinsQueue p k s t :=
  ⟨onlyQueue_ofFlags h p k, h.timeBase, h.tables, h.claims, h.withdraws, fun q => by rw [h.port]⟩

theorem wires_holdOpt (s : State) (b : Option BufIx) : (s.holdOpt b).wires = s.wires := by cases b <;> rfl

theorem timeBase_holdOpt (s : State) (b : Option BufIx) : (s.holdOpt b).timeBase = s.timeBase := by cases b <;> rfl

theorem state_setQueue (s : State) (p q : Port) (k : QueueId) (es : List QueueEntry) :
    ((s.setQueue p k es).port q).state = (s.port q).state := by
  rw [State.setQueue, State.port_modPort]
  split
  · next same => rw [setQueue_state, same]
  · rfl

theorem joinsQueue_deliver {s t : State} {p : Port} {k : QueueId} {e : QueueEntry} (delivered : s.deliver p k e = some t) :
    JoinsQueue p k s t := by
  have joined := onlyQueue_deliver delivered
  have tables := (keeps_deliver delivered).tables
  obtain ⟨-, rfl⟩ := deliver_eq_some.mp delivered
  refine ⟨joined, timeBase_holdOpt _ _, tables, ?_, ?_, fun q => ?_⟩
  · rw [wires_holdOpt]
    rfl
  · rw [wires_holdOpt]
    rfl
  · rw [port_of_ports (ports_holdOpt _ _), state_setQueue]

theorem joinsQueue_sendCallReply (s : State) (r : CallRecord) (st : Status) :
    JoinsQueue r.reqPort .g s (s.sendCallReply r st) := by
  unfold State.sendCallReply State.offerReply
  split
  · next delivered => exact joinsQueue_deliver delivered
  · exact joinsQueue_ofFlags (onlyFlags_raise s _) _ _

/-- R66: a call reply has no payload, so it holds no buffer. -/
theorem pool_sendCallReply (s : State) (r : CallRecord) (st : Status) : (s.sendCallReply r st).pool = s.pool := by
  unfold State.sendCallReply State.offerReply
  split
  · next delivered =>
    obtain ⟨-, rfl⟩ := deliver_eq_some.mp delivered
    rfl
  · exact (onlyFlags_raise s _).pool

/-! ### The withdraw that goes with the freeing of a QUEUED record (R52) -/

/-- The withdraw of record i, if it is QUEUED. -/
def State.withdrawOf (s : State) (i : CallIx) : List (Port × Tag) :=
  if (s.record i).state = .queued then [((s.record i).tgtPort, recordTag (s.record i).gen i)] else []

/-- Withdraws are put on their way. -/
def State.sendsWithdraws (s : State) (l : List (Port × Tag)) : State :=
  { s with wires := { s.wires with withdraws := s.wires.withdraws ++ l } }

/-- The withdraw that record i may owe is on its way. -/
def State.withdrawn (s : State) (i : CallIx) : State := s.sendsWithdraws (s.withdrawOf i)

theorem withdrawIfQueued_eq (s : State) (i : CallIx) :
    s.withdrawIfQueued i = s.withdrawn i := by
  unfold State.withdrawIfQueued State.withdrawn State.sendsWithdraws State.withdrawOf
  split
  · rfl
  · rw [List.append_nil]

/-! ### The freeing of a record (R48, R52) -/

theorem record_freeing (s : State) (i j : CallIx) :
    (s.freeing i).record j = if i = j then freedRecord (s.record i) else s.record j := look_put _ _ _ _

/-- R48: the freeing of a record in use lowers the records in use by 1. -/
theorem recordsInUse_freeing {s : State} {i : CallIx} (used : (s.record i).inUse = true) :
    (s.freeing i).recordsInUse + 1 = s.recordsInUse := by
  have used : (look s.calls.records i).state ≠ .free := by simpa [CallRecord.inUse, State.record] using used
  have counted : 0 < s.recordsInUse :=
    List.countP_pos_iff.mpr ⟨look s.calls.records i, Vector.mem_toList_iff.mpr (Vector.getElem_mem i.isLt), by simpa using used⟩
  have fewer : (s.freeing i).recordsInUse = s.recordsInUse - 1 := by
    show (put s.calls.records i (freedRecord (s.record i))).toList.countP _ = _
    rw [countP_put]
    simp [used, freedRecord, State.recordsInUse]
  omega

/-! ### The end of a call with its call reply (R52, R67) -/

/-- From s to t the call of record i ended, the requester was sent the status st, and no withdraw was sent. -/
structure CallEnded (s t : State) (i : CallIx) (st : Status) : Prop where
  calls : t.calls = (s.freeing i).calls
  withdraws : t.wires.withdraws = s.wires.withdraws
  timeBase : t.timeBase = s.timeBase
  tables : t.tables = s.tables
  pool : t.pool = s.pool
  state : ∀ q, (t.port q).state = (s.port q).state
  counters : t.events.counters = s.events.counters
  queue : ∀ q k, q ≠ (s.record i).reqPort ∨ k ≠ .g → t.queue q k = s.queue q k
  reply : callReplySent s t (s.record i) st
  flagged : ∀ f, s.flagged f → t.flagged f
  fall : s.recordsInUse = s.settings.highMark.toNat → t.flagged (.fall .callsHigh)

namespace CallEnded
variable {s t : State} {i : CallIx} {st : Status} (h : CallEnded s t i st)
include h

theorem record (j : CallIx) : t.record j = if i = j then freedRecord (s.record i) else s.record j := by
  rw [State.record, h.calls]
  exact record_freeing s i j

theorem record_self : t.record i = freedRecord (s.record i) := (h.record i).trans (if_pos rfl)

theorem record_other (j : CallIx) (other : j ≠ i) : t.record j = s.record j := (h.record j).trans (if_neg (Ne.symm other))

theorem freeList : t.calls.freeList = s.calls.freeList ++ [i] := congrArg CallTable.freeList h.calls

end CallEnded

theorem callEnded_freed {s : State} {i : CallIx} (used : (s.record i).inUse = true) (st : Status) :
    CallEnded s ((s.freeRecord i).sendCallReply (s.record i) st) i st := by
  obtain ⟨-, -, -, ports, pool, -⟩ := freeRecord_of_inUse used
  have freed := onlyFlags_freeRecord used
  have joined := joinsQueue_sendCallReply (s.freeRecord i) (s.record i) st
  have sent := callReplySent_sendCallReply (s.freeRecord i) (s.record i) st
  constructor
  · exact joined.calls.trans freed.calls
  · exact joined.withdraws.trans freed.withdraws
  · exact joined.timeBase.trans freed.timeBase
  · exact joined.tables.trans freed.tables
  · exact (pool_sendCallReply _ _ _).trans pool
  · exact fun q => by rw [joined.state, port_of_ports ports]
  · exact joined.counters.trans freed.counters
  · exact fun q k other => by rw [joined.queue q k other, queue_of_ports ports]
  · simpa only [callReplySent, accepts_of_ports ports freed.tables, queue_of_ports ports] using sent
  · exact fun f set => joined.flagged f (freed.flagged f set)
  · exact fun atMark => joined.flagged _ (flagged_freeRecord_fall used atMark)

/-- Flags set behind the end of a call. -/
theorem CallEnded.raise {s t : State} {i : CallIx} {st : Status} (h : CallEnded s t i st) (f : Flag) :
    CallEnded s (t.raise f) i st := by
  have raised := onlyFlags_raise t f
  obtain ⟨accepted, refused⟩ := h.reply
  constructor
  · exact raised.calls.trans h.calls
  · exact raised.withdraws.trans h.withdraws
  · exact raised.timeBase.trans h.timeBase
  · exact raised.tables.trans h.tables
  · exact raised.pool.trans h.pool
  · exact fun q => by rw [raised.port, h.state]
  · exact raised.counters.trans h.counters
  · exact fun q k other => (raised.queue q k).trans (h.queue q k other)
  · refine ⟨fun room => (raised.queue _ _).trans (accepted room), fun full => ?_⟩
    obtain ⟨same, lost⟩ := refused full
    exact ⟨(raised.queue _ _).trans same, raised.flagged _ lost⟩
  · exact fun g set => raised.flagged g (h.flagged g set)
  · exact fun atMark => raised.flagged _ (h.fall atMark)

/-! ### The passing of time (R171) -/

theorem queue_elapse (s : State) (d : Nat) (p : Port) (k : QueueId) : (s.elapse d).queue p k = s.queue p k := by
  rw [State.queue, State.port_elapse]
  cases k <;> rfl

theorem accepts_elapse (s : State) (d : Nat) (p : Port) (k : QueueId) : (s.elapse d).accepts p k = s.accepts p k := by
  cases k <;> (unfold State.accepts; rw [State.port_elapse]; rfl)

/-- R62: the time that passes until a deadline brings the time base to it, and none passes where it has been reached. -/
theorem timeBase_untilDeadline (now deadline : Count) : now + BitVec.ofNat 32 (untilDeadline now deadline)
    = if reached now deadline then now else deadline := by
  unfold untilDeadline
  split
  · simp
  · rw [BitVec.ofNat_toNat, BitVec.setWidth_eq, BitVec.add_comm, BitVec.sub_add_cancel]

/-! ### The expiry of a call (R62) -/

/-- R173: a command whose occasion does not exist changes nothing, whether or not reset is asserted. -/
theorem running_of_fixed {f : State → State} {s : State} (same : f s = s) : running f s = .next s := by
  rw [running, same, ite_self]

/-- The expiry before its event and its count: the withdraw, and the end of the call. -/
def State.timedOut (s : State) (i : CallIx) : State :=
  ((s.withdrawIfQueued i).freeRecord i).sendCallReply (s.record i) .timeout

theorem expire_eq (s : State) (i : CallIx) : s.expire i
    = ((s.timedOut i).raise (.event .callTimeout)).modCount (fun c => { c with callsTimedOut := c.callsTimedOut + 1 }) := rfl

theorem callEnded_timedOut {s : State} {i : CallIx} (used : (s.record i).inUse = true) :
    CallEnded (s.withdrawn i) (s.timedOut i) i .timeout := by
  unfold State.timedOut
  rw [withdrawIfQueued_eq]
  exact callEnded_freed (s := s.withdrawn i) used _

/-- The expiry of a record in use: the time to its deadline passes, and behind the end of its call and the event comes the count. -/
theorem exec_callExpiry {s : State} {i : CallIx} (run : s.resetAsserted = false) (used : (s.record i).inUse = true) :
    ∃ v, exec (.callExpiry i) s = .next (v.modCount (fun c => { c with callsTimedOut := c.callsTimedOut + 1 }))
      ∧ CallEnded ((s.elapse (untilDeadline s.timeBase (s.record i).deadline)).withdrawn i) v i .timeout
      ∧ v.flagged (.event .callTimeout) := by
  refine ⟨((s.elapse (untilDeadline s.timeBase (s.record i).deadline)).timedOut i).raise (.event .callTimeout), ?_,
    (callEnded_timedOut (s := s.elapse _) used).raise _, flagged_raise _ _⟩
  show running (fun s => s.callExpiry i) s = _
  rw [running_of_notReset run, State.callExpiry, if_pos used, expire_eq]

end Sys2Proof.Machine

open Sys2Proof Sys2Proof.Machine

/-- Settles O33: the time to the DEADLINE passes, and then the call ends with TIMEOUT. -/
theorem callExpiresAtDeadline : Obligations.CallExpiresAtDeadline := by
  refine ⟨fun s i run used => ?_, fun s i free => ?_⟩
  · obtain ⟨v, expired, ended, told⟩ := exec_callExpiry run used
    refine ⟨_, expired, ?_, ended.record_self, ended.freeList, ended.record_other, ended.withdraws, ?_, told, ended.fall, ?_,
      fun q d => ?_, fun q other => ?_, ended.pool⟩
    · exact ended.timeBase.trans (timeBase_untilDeadline _ _)
    · have reply : callReplySent (s.elapse _) v (s.record i) .timeout := ended.reply
      simp only [callReplySent, accepts_elapse, queue_elapse] at reply
      exact reply
    · exact congrArg (·.callsTimedOut + 1) ended.counters
    · exact (ended.queue q _ (.inr (by simp))).trans (queue_elapse s _ q _)
    · exact (ended.queue q _ (.inl other)).trans (queue_elapse s _ q _)
  · have unused : ¬ (s.record i).inUse = true := by simp [CallRecord.inUse, free]
    exact running_of_fixed (f := (·.callExpiry i)) (if_neg unused)
end

section
/-! Claims of the schedulers on calls (R49, R53, R60, R61): the tags of records, the oldest claim taken up, and what it does. -/

namespace Sys2Proof.Machine
open Sys2Proof

/-! ### Record tags (R49, R53) -/

theorem toNat_hiByte (x : Half) : (hiByte x).toNat = x.toNat / 256 := by
  have := x.isLt
  simp only [hiByte, BitVec.extractLsb'_toNat, Nat.shiftRight_eq_div_pow]
  omega

theorem toNat_loByte (x : Half) : (loByte x).toNat = x.toNat % 256 := by
  simp [loByte, BitVec.extractLsb'_toNat]

theorem toNat_recordTag (gen : BitVec 8) (i : CallIx) : (recordTag gen i).toNat = gen.toNat * 256 + i.val := by
  have lo : i.val < 2 ^ 8 := by omega
  simp only [recordTag, ofBytes, natByte, BitVec.toNat_append, BitVec.toNat_ofNat, Nat.mod_eq_of_lt lo]
  rw [← Nat.shiftLeft_add_eq_or_of_lt lo, Nat.shiftLeft_eq]

theorem tagIndex_eq_some_iff (tag : Tag) (i : CallIx) : tagIndex tag = some i ↔ tag.toNat % 256 = i.val := by
  unfold tagIndex
  rw [← toNat_loByte]
  split
  · rw [Option.some.injEq, Fin.ext_iff]
  · next large => exact iff_of_false (by simp) (fun same => large (same ▸ i.isLt))

theorem claimed_eq_some_iff (s : State) (tag : Tag) (i : CallIx) : s.claimed tag = some i ↔
    tag.toNat % 256 = i.val ∧ (s.record i).state ≠ .free ∧ (s.record i).gen.toNat = tag.toNat / 256 := by
  rw [← tagIndex_eq_some_iff, ← toNat_hiByte, ← BitVec.toNat_eq]
  unfold State.claimed
  cases tagIndex tag with
  | none => simp
  | some j =>
    dsimp only
    split
    · next named =>
      simp only [CallRecord.inUse, Bool.and_eq_true, bne_iff_ne, beq_iff_eq] at named
      rw [Option.some.injEq]
      exact ⟨fun same => ⟨same, same ▸ named⟩, And.left⟩
    · next other =>
      refine iff_of_false (by simp) ?_
      rintro ⟨same, used, gen⟩
      obtain rfl := Option.some.inj same
      exact other (by simp [CallRecord.inUse, used, gen])

/-- R53: a claimed record is in use. -/
theorem inUse_of_claimed {s : State} {tag : Tag} {i : CallIx} (named : s.claimed tag = some i) : (s.record i).inUse = true := by
  simp [CallRecord.inUse, ((claimed_eq_some_iff s tag i).mp named).2.1]

/-! ### The claim that is taken up (R52; logs 7 and 8) -/

/-- A claim on its way is taken up. -/
def State.takesUp (s : State) (c : Claim) : State :=
  { s with wires := { s.wires with claims := s.wires.claims.erase c } }

theorem takeOldest_of_find {s : State} {sort : Claim → Bool} {c : Claim} (found : s.wires.claims.find? sort = some c) :
    s.takeOldest sort = (s.takesUp c).takeClaim c := by
  rw [State.takeOldest, found]
  rfl

/-- A claim command takes up the oldest claim of its sort. -/
theorem running_takeOldest {s : State} {sort : Claim → Bool} {c : Claim} (run : s.resetAsserted = false)
    (found : s.wires.claims.find? sort = some c) : running (·.takeOldest sort) s = .next ((s.takesUp c).takeClaim c) := by
  rw [running_of_notReset run, takeOldest_of_find found]

theorem takeOldest_of_none {s : State} {sort : Claim → Bool} (unclaimed : s.wires.claims.find? sort = none) :
    s.takeOldest sort = s := by
  rw [State.takeOldest, unclaimed]

/-! ### The delivered claim (R60) -/

section
variable (s : State) (tag : Tag)

theorem takeDelivered_frame : (s.takeDelivered tag).wires = s.wires ∧ (s.takeDelivered tag).ports = s.ports
    ∧ (s.takeDelivered tag).pool = s.pool ∧ (s.takeDelivered tag).events = s.events
    ∧ (s.takeDelivered tag).calls.freeList = s.calls.freeList := by
  unfold State.takeDelivered
  split
  · exact ⟨rfl, rfl, rfl, rfl, rfl⟩
  · split <;> exact ⟨rfl, rfl, rfl, rfl, rfl⟩

theorem record_takeDelivered (j : CallIx) : (s.takeDelivered tag).record j
    = if s.claimed tag = some j ∧ (s.record j).state = .queued then { s.record j with state := .waiting } else s.record j := by
  unfold State.takeDelivered
  split
  · next unnamed => simp [unnamed]
  · next i named =>
    simp only [named, Option.some.injEq]
    by_cases same : i = j
    · subst same
      split <;> simp [*]
    · have other : ¬ (i = j ∧ (s.record j).state = .queued) := fun both => same both.1
      rw [if_neg other]
      split
      · exact (State.record_setRecord s i j _).trans (if_neg same)
      · rfl

end

/-! ### The undeliverable claim (R61) -/

theorem takeUndeliverable_of_queued {s : State} {tag : Tag} {i : CallIx} (named : s.claimed tag = some i)
    (queued : (s.record i).state = .queued) (abort : Bool) : s.takeUndeliverable tag abort =
      if abort then (s.freeRecord i).sendCallReply (s.record i) .cancelled
      else ((s.freeRecord i).sendCallReply (s.record i) .undeliverable).raise (.event .undeliverable) := by
  rw [State.takeUndeliverable, named]
  exact if_pos queued

theorem takeUndeliverable_of_not_queued {s : State} {tag : Tag}
    (other : ∀ i, s.claimed tag = some i → (s.record i).state ≠ .queued) (abort : Bool) : s.takeUndeliverable tag abort = s := by
  unfold State.takeUndeliverable
  split
  · rfl
  · next i named => exact if_neg (other i named)

theorem callEnded_takeUndeliverable {s : State} {tag : Tag} {i : CallIx} (named : s.claimed tag = some i)
    (queued : (s.record i).state = .queued) (abort : Bool) :
    CallEnded s (s.takeUndeliverable tag abort) i (if abort then .cancelled else .undeliverable)
      ∧ (abort = false → (s.takeUndeliverable tag abort).flagged (.event .undeliverable)) := by
  have used := inUse_of_claimed named
  rw [takeUndeliverable_of_queued named queued]
  cases abort with
  | true => exact ⟨callEnded_freed used _, nofun⟩
  | false => exact ⟨(callEnded_freed used _).raise _, fun _ => flagged_raise _ _⟩

end Sys2Proof.Machine

open Sys2Proof Sys2Proof.Machine

/-- Settles O31: the oldest claim of its sort is taken up, and acts on the QUEUED call its tag names. -/
theorem tagClaimsActOnTheirCall : Obligations.TagClaimsActOnTheirCall := by
  refine ⟨toNat_recordTag, claimed_eq_some_iff, fun s p tag run found => ?_, fun s p tag abort run found => ?_, fun s p => ?_⟩
  · obtain ⟨wires, ports, pool, events, freeList⟩ := takeDelivered_frame (s.takesUp (.delivered p tag)) tag
    exact ⟨(s.takesUp (.delivered p tag)).takeDelivered tag, running_takeOldest run found, congrArg Wires.claims wires, ports, pool,
      events, freeList, record_takeDelivered _ tag⟩
  · let u := s.takesUp (.undeliverable p tag abort)
    have taken : exec (.undeliverableClaim p) s = .next (u.takeUndeliverable tag abort) := running_takeOldest run found
    refine ⟨fun i named queued => ?_, fun other => ?_⟩
    · obtain ⟨ended, told⟩ := callEnded_takeUndeliverable (s := u) named queued abort
      exact ⟨_, taken, ended.record_self, ended.freeList, ended.record_other, ended.withdraws, ended.reply, ended.fall, told⟩
    · rw [takeUndeliverable_of_not_queued (s := u) other] at taken
      exact ⟨u, taken, rfl, rfl, rfl, rfl⟩
  · exact ⟨fun unclaimed => running_of_fixed (f := (·.takeOldest (Claim.isDelivered p))) (takeOldest_of_none unclaimed),
      fun unclaimed => running_of_fixed (f := (·.takeOldest (Claim.isUndeliverable p))) (takeOldest_of_none unclaimed)⟩
end

section
/-! Port down claims (R64, R67, R68): what each record that names the port comes to, and the records taken one after the other. -/

namespace Sys2Proof.Machine
open Sys2Proof

/-! ### What a port down claim owes to the records of a list (R64, R67) -/

/-- R64: record i is in use and names port p. -/
def State.namesPort (s : State) (p : Port) (i : CallIx) : Bool :=
  (s.record i).inUse && ((s.record i).reqPort == p || (s.record i).tgtPort == p)

/-- R64: record i is QUEUED and names port p as requester alone, so that its request is withdrawn. -/
def State.withdrawsRequest (s : State) (p : Port) (i : CallIx) : Bool :=
  s.namesPort p i && (s.record i).tgtPort != p && (s.record i).state == .queued

/-- R64: record i is in use and names port p as target alone, so that its requester on port q is answered. -/
def State.answersOn (s : State) (p q : Port) (i : CallIx) : Bool :=
  (s.record i).inUse && (s.record i).tgtPort == p && (s.record i).reqPort != p && (s.record i).reqPort == q

def State.downWithdraws (s : State) (p : Port) (l : List CallIx) : List (Port × Tag) :=
  (l.filter (s.withdrawsRequest p)).map (fun i => ((s.record i).tgtPort, recordTag (s.record i).gen i))

def State.downReplies (s : State) (p q : Port) (l : List CallIx) : List QueueEntry :=
  (l.filter (s.answersOn p q)).map (fun i => callReplyEntry (s.record i) .portDown)

/-- R73: the entries that G of port q has room for. -/
def State.gRoom (s : State) (q : Port) : Nat := if (s.port q).state.inService then 8 - (s.port q).gq.length else 0

/-- R64, R67: from s to t the records of a list that name port p were ended, in the list's order. -/
structure PortDownTaken (p : Port) (l : List CallIx) (s t : State) : Prop where
  record : ∀ i, t.record i = if i ∈ l ∧ s.namesPort p i = true then freedRecord (s.record i) else s.record i
  freeList : t.calls.freeList = s.calls.freeList ++ l.filter (s.namesPort p)
  withdraws : t.wires.withdraws = s.wires.withdraws ++ s.downWithdraws p l
  g : ∀ q, t.queue q .g = s.queue q .g ++ (s.downReplies p q l).take (s.gRoom q)
  lost : ∀ q, s.gRoom q < (s.downReplies p q l).length → t.flagged (.event .gwReplyLost)
  data : ∀ q d, t.queue q (.data d) = s.queue q (.data d)
  state : ∀ q, (t.port q).state = (s.port q).state
  tables : t.tables = s.tables
  flagged : ∀ f, s.flagged f → t.flagged f
  fall : s.settings.highMark.toNat ≤ s.recordsInUse → t.recordsInUse < t.settings.highMark.toNat →
    t.flagged (.fall .callsHigh)

/-! ### The records of two lists, one list after the other -/

theorem portDownTaken_nil (p : Port) (s : State) : PortDownTaken p [] s s where
  record := fun i => by simp
  freeList := by simp
  withdraws := by simp [State.downWithdraws]
  g := fun q => by simp [State.downReplies]
  lost := fun q => by simp [State.downReplies]
  data := fun _ _ => rfl
  state := fun _ => rfl
  tables := rfl
  flagged := fun _ set => set
  fall := fun above below => absurd below (Nat.not_lt.mpr above)

namespace PortDownTaken
variable {p : Port} {l m : List CallIx} {s t u : State}

theorem gRoom (h : PortDownTaken p l s t) (q : Port) : t.gRoom q = s.gRoom q - (s.downReplies p q l).length := by
  have g := congrArg List.length (h.g q)
  have fill (s : State) : (s.port q).gq.length = (s.queue q .g).length := rfl
  unfold State.gRoom at g ⊢
  rw [h.state]
  split at g
  · next serves =>
    rw [List.length_append, List.length_take] at g
    simp only [serves, if_true, fill] at g ⊢
    omega
  · next idle => simp [idle]

/-- A record that is not of the list is as it was. -/
theorem record_of_notMem (h : PortDownTaken p l s t) {i : CallIx} (other : i ∉ l) : t.record i = s.record i :=
  (h.record i).trans (if_neg fun both => other both.1)

theorem trans (h : PortDownTaken p l s t) (k : PortDownTaken p m t u) (apart : l.Disjoint m) :
    PortDownTaken p (l ++ m) s u := by
  have kept : ∀ i ∈ m, t.record i = s.record i := fun i mem => h.record_of_notMem fun first => apart first mem
  have names : ∀ i ∈ m, t.namesPort p i = s.namesPort p i := fun i mem => by simp only [State.namesPort, kept i mem]
  have withdraws : t.downWithdraws p m = s.downWithdraws p m := by
    unfold State.downWithdraws
    rw [List.filter_congr (q := s.withdrawsRequest p) fun i mem => by simp only [State.withdrawsRequest, names i mem, kept i mem]]
    exact List.map_congr_left fun i mem => by rw [kept i (List.mem_of_mem_filter mem)]
  have replies (q : Port) : t.downReplies p q m = s.downReplies p q m := by
    unfold State.downReplies
    rw [List.filter_congr (q := s.answersOn p q) fun i mem => by simp only [State.answersOn, kept i mem]]
    exact List.map_congr_left fun i mem => by rw [kept i (List.mem_of_mem_filter mem)]
  have joined (q : Port) : s.downReplies p q (l ++ m) = s.downReplies p q l ++ s.downReplies p q m := by
    simp [State.downReplies]
  constructor
  · intro i
    rw [k.record]
    by_cases mem : i ∈ m
    · simp [mem, names i mem, kept i mem]
    · simp [mem, h.record]
  · rw [k.freeList, h.freeList, List.filter_append, List.filter_congr names, List.append_assoc]
  · rw [k.withdraws, h.withdraws, withdraws, List.append_assoc]
    simp [State.downWithdraws]
  · intro q
    rw [k.g, h.g, replies, joined, List.take_append, h.gRoom, List.append_assoc]
  · intro q short
    rw [joined, List.length_append] at short
    by_cases first : s.gRoom q < (s.downReplies p q l).length
    · exact k.flagged _ (h.lost q first)
    · refine k.lost q ?_
      rw [h.gRoom, replies]
      omega
  · exact fun q d => (k.data q d).trans (h.data q d)
  · exact fun q => (k.state q).trans (h.state q)
  · exact k.tables.trans h.tables
  · exact fun f set => k.flagged f (h.flagged f set)
  · intro above below
    by_cases still : t.settings.highMark.toNat ≤ t.recordsInUse
    · exact k.fall still below
    · exact k.flagged _ (h.fall above (Nat.lt_of_not_le still))

end PortDownTaken

/-! ### One record (R64) -/

theorem gRoom_eq_zero_iff (s : State) (q : Port) : s.gRoom q = 0 ↔ s.accepts q .g = false := by
  rw [← Bool.not_eq_true, accepts_g_iff, ← inService_iff, State.gRoom]
  split
  · next serves => simp [serves, State.queue, PortSt.queue, Nat.sub_eq_zero_iff_le]
  · next idle => simp [idle]

/-- The records behind the end of the one call of record i. -/
theorem record_ended {s : State} {p : Port} {i : CallIx} (names : s.namesPort p i = true) (j : CallIx) :
    (if i = j then freedRecord (s.record i) else s.record j)
      = if j ∈ [i] ∧ s.namesPort p j = true then freedRecord (s.record j) else s.record j := by
  by_cases same : i = j
  · subst same
    simp [names]
  · simp [same, Ne.symm same]

section
variable {p : Port} {s : State} {i : CallIx} (used : (s.record i).inUse = true)
include used

/-- A record whose freeing takes the records in use from HIGH_MARK or above to below it was freed at HIGH_MARK. -/
theorem recordsInUse_eq_highMark {t : State} (calls : t.calls = (s.freeing i).calls) (tables : t.tables = s.tables)
    (above : s.settings.highMark.toNat ≤ s.recordsInUse) (below : t.recordsInUse < t.settings.highMark.toNat) :
    s.recordsInUse = s.settings.highMark.toNat := by
  have fewer := recordsInUse_freeing used
  rw [State.settings_of_tables tables, State.recordsInUse, calls] at below
  have below : (s.freeing i).recordsInUse < s.settings.highMark.toNat := below
  omega

/-- R64: a record that names the port as requester is freed, behind the withdraw it may owe. -/
theorem portDownTaken_requester (requester : (s.record i).reqPort = p) :
    PortDownTaken p [i] s ((s.sendsWithdraws (s.downWithdraws p [i])).freeRecord i) := by
  let u := s.sendsWithdraws (s.downWithdraws p [i])
  have freed : OnlyFlags (u.freeing i) (u.freeRecord i) := onlyFlags_freeRecord used
  have names : s.namesPort p i = true := by simp [State.namesPort, used, requester]
  have unanswered (q : Port) : s.downReplies p q [i] = [] := by simp [State.downReplies, State.answersOn, requester]
  constructor
  · exact fun j => (freed.record j).trans ((record_freeing u i j).trans (record_ended names j))
  · rw [freed.calls]
    show s.calls.freeList ++ [i] = _
    simp [names]
  · exact freed.withdraws
  · intro q
    rw [freed.queue, unanswered, List.take_nil, List.append_nil]
    rfl
  · simp [unanswered]
  · exact fun q d => freed.queue q _
  · exact fun q => by rw [freed.port]; rfl
  · exact freed.tables
  · exact freed.flagged
  · intro above below
    exact flagged_freeRecord_fall (s := u) used (recordsInUse_eq_highMark used freed.calls freed.tables above below)

/-- R64: a record that names the port as target alone is freed, and its requester answered. -/
theorem portDownTaken_target (target : (s.record i).tgtPort = p) (elsewhere : (s.record i).reqPort ≠ p) :
    PortDownTaken p [i] s ((s.freeRecord i).sendCallReply (s.record i) .portDown) := by
  have ended := callEnded_freed used .portDown
  obtain ⟨accepted, refused⟩ := ended.reply
  have names : s.namesPort p i = true := by simp [State.namesPort, used, target]
  have unwithdrawn : s.downWithdraws p [i] = [] := by simp [State.downWithdraws, State.withdrawsRequest, target]
  have replies (q : Port) : s.downReplies p q [i]
      = if (s.record i).reqPort = q then [callReplyEntry (s.record i) .portDown] else [] := by
    have answers : s.answersOn p q i = decide ((s.record i).reqPort = q) := by
      simp [State.answersOn, used, target, elsewhere, Bool.beq_eq_decide_eq]
    unfold State.downReplies
    rw [List.filter_singleton, answers]
    split <;> simp [*]
  constructor
  · exact fun j => (ended.record j).trans (record_ended names j)
  · simp [ended.freeList, names]
  · simp [ended.withdraws, unwithdrawn]
  · intro q
    rw [replies]
    split
    · next same =>
      subst same
      cases room : s.accepts (s.record i).reqPort .g with
      | true =>
        have nonempty : s.gRoom (s.record i).reqPort ≠ 0 := fun zero => by simp [(gRoom_eq_zero_iff s _).mp zero] at room
        rw [accepted room, List.take_of_length_le (Nat.one_le_iff_ne_zero.mpr nonempty)]
      | false =>
        rw [(refused room).1, (gRoom_eq_zero_iff s _).mpr room]
        simp
    · next other =>
      rw [ended.queue q _ (.inl (Ne.symm other))]
      simp
  · intro q short
    rw [replies] at short
    split at short
    · next same =>
      subst same
      exact (refused ((gRoom_eq_zero_iff s _).mp (Nat.lt_one_iff.mp short))).2
    · simp at short
  · exact fun q d => ended.queue q _ (.inr (by simp))
  · exact ended.state
  · exact ended.tables
  · exact ended.flagged
  · exact fun above below => ended.fall (recordsInUse_eq_highMark used ended.calls ended.tables above below)

end

/-- R64: a record that does not name the port stays. -/
theorem portDownTaken_unnamed {p : Port} {s : State} {i : CallIx} (other : s.namesPort p i = false) :
    PortDownTaken p [i] s s := by
  have nil := portDownTaken_nil p s
  have unnamed : (s.record i).inUse = true → (s.record i).reqPort ≠ p ∧ (s.record i).tgtPort ≠ p := by
    simpa [State.namesPort] using other
  have unanswered (q : Port) : s.downReplies p q [i] = [] := by
    simp +contextual [State.downReplies, State.answersOn, unnamed]
  refine ⟨fun j => ?_, ?_, ?_, fun q => ?_, ?_, nil.data, nil.state, nil.tables, nil.flagged, nil.fall⟩
  · rw [if_neg]
    rintro ⟨mem, names⟩
    simp [List.mem_singleton.mp mem, other] at names
  · simp [other]
  · simp [State.downWithdraws, State.withdrawsRequest, other]
  · simp [unanswered]
  · simp [unanswered]

section
variable {p : Port} {s : State} {i : CallIx} (used : (s.record i).inUse = true)
include used

theorem portDownRecord_target (target : (s.record i).tgtPort = p) (elsewhere : (s.record i).reqPort ≠ p) :
    s.portDownRecord p i = (s.freeRecord i).sendCallReply (s.record i) .portDown := by
  simp [State.portDownRecord, used, target, elsewhere]

theorem portDownRecord_both (target : (s.record i).tgtPort = p) (requester : (s.record i).reqPort = p) :
    s.portDownRecord p i = s.freeRecord i := by
  simp [State.portDownRecord, used, target, requester]

theorem portDownRecord_requester (elsewhere : (s.record i).tgtPort ≠ p) (requester : (s.record i).reqPort = p) :
    s.portDownRecord p i = (s.withdrawn i).freeRecord i := by
  simp [State.portDownRecord, used, elsewhere, requester, withdrawIfQueued_eq]

end

theorem portDownRecord_unnamed {p : Port} {s : State} {i : CallIx} (other : s.namesPort p i = false) :
    s.portDownRecord p i = s := by
  have unnamed : (s.record i).inUse = true → (s.record i).reqPort ≠ p ∧ (s.record i).tgtPort ≠ p := by
    simpa [State.namesPort] using other
  cases used : (s.record i).inUse <;> simp [State.portDownRecord, used, unnamed]

/-- The three kinds of record that R64 tells apart, and those it leaves. -/
theorem portDownTaken_portDownRecord (p : Port) (s : State) (i : CallIx) : PortDownTaken p [i] s (s.portDownRecord p i) := by
  cases names : s.namesPort p i with
  | false =>
    rw [portDownRecord_unnamed names]
    exact portDownTaken_unnamed names
  | true =>
    obtain ⟨used, -⟩ : (s.record i).inUse = true ∧ _ := by simpa only [State.namesPort, Bool.and_eq_true] using names
    by_cases requester : (s.record i).reqPort = p
    · have taken := portDownTaken_requester used requester
      by_cases target : (s.record i).tgtPort = p
      · have unwithdrawn : s.downWithdraws p [i] = [] := by simp [State.downWithdraws, State.withdrawsRequest, target]
        rw [unwithdrawn, State.sendsWithdraws, List.append_nil] at taken
        rw [portDownRecord_both used target requester]
        exact taken
      · have withdrawn : s.downWithdraws p [i] = s.withdrawOf i := by
          have asks : s.withdrawsRequest p i = decide ((s.record i).state = .queued) := by
            simp [State.withdrawsRequest, names, target, Bool.beq_eq_decide_eq]
          unfold State.downWithdraws State.withdrawOf
          rw [List.filter_singleton, asks]
          split <;> simp [*]
        rw [withdrawn] at taken
        rw [portDownRecord_requester used target requester]
        exact taken
    · have target : (s.record i).tgtPort = p := by simpa [State.namesPort, used, requester] using names
      rw [portDownRecord_target used target requester]
      exact portDownTaken_target used target requester

/-! ### The records in rising order (R64) -/

theorem portDownTaken_foldl (p : Port) {l : List CallIx} (nodup : l.Nodup) (s : State) :
    PortDownTaken p l s (l.foldl (State.portDownRecord p) s) := by
  induction l generalizing s with
  | nil => exact portDownTaken_nil p s
  | cons i l ih =>
    obtain ⟨alone, nodup⟩ := List.nodup_cons.mp nodup
    exact (portDownTaken_portDownRecord p s i).trans (ih nodup _) (by simpa using alone)

theorem portDownTaken_takePortDown (p : Port) (s : State) : PortDownTaken p (List.finRange 128) s (s.takePortDown p) :=
  portDownTaken_foldl p (List.nodup_finRange 128) s

/-! ### The claims (R64) -/

theorem takeTargetPortDown_of_claimed {s : State} {p : Port} {tag : Tag} {i : CallIx} (named : s.claimed tag = some i) :
    s.takeTargetPortDown p tag = s.portDownRecord p i := by
  rw [State.takeTargetPortDown, named]

theorem takeTargetPortDown_of_unclaimed {s : State} {p : Port} {tag : Tag} (unnamed : s.claimed tag = none) :
    s.takeTargetPortDown p tag = s := by
  rw [State.takeTargetPortDown, unnamed]

/-- The port down claims of one port are all alike. -/
theorem find?_isPortDown {p : Port} {claims : List Claim} (waits : .portDown p ∈ claims) :
    claims.find? (Claim.isPortDown p) = some (.portDown p) := by
  have present : (claims.find? (Claim.isPortDown p)).isSome = true :=
    List.find?_isSome.mpr ⟨.portDown p, waits, by simp [Claim.isPortDown]⟩
  obtain ⟨c, found⟩ := Option.isSome_iff_exists.mp present
  have sort : Claim.isPortDown p c = true := List.find?_some found
  cases c <;> simp [Claim.isPortDown] at sort
  rw [found, sort]

end Sys2Proof.Machine

open Sys2Proof Sys2Proof.Machine

/-- Settles O32: the port down claim takes every record in rising order, and a tag claim of the flush the one its tag names. -/
theorem portDownClaimsEndCalls : Obligations.PortDownClaimsEndCalls := by
  constructor
  · intro s p run waits reached
    have taken := portDownTaken_takePortDown p (s.takesUp (.portDown p))
    have ran : exec (.portDownClaim p) s = .next ((s.takesUp (.portDown p)).takePortDown p) :=
      running_takeOldest (sort := Claim.isPortDown p) (c := .portDown p) run (find?_isPortDown waits)
    refine ⟨_, ran, fun i => ?_, taken.freeList, taken.withdraws, fun q => ⟨taken.g q, taken.lost q⟩, taken.data,
      fun above below => taken.fall above ?_⟩
    · rw [taken.record]
      simp only [List.mem_finRange, true_and]
      rfl
    · rwa [State.settings_of_tables taken.tables]
  · intro s p tag run found
    let u := s.takesUp (.targetPortDown p tag)
    have taken : exec (.targetPortDownClaim p) s = .next (u.takeTargetPortDown p tag) := running_takeOldest run found
    refine ⟨fun i named target => ?_, fun unnamed => ?_⟩
    · have used : (u.record i).inUse = true := inUse_of_claimed named
      rw [takeTargetPortDown_of_claimed (s := u) named] at taken
      by_cases requester : (u.record i).reqPort = p
      · obtain ⟨record, others, freeList, ports, -⟩ := freeRecord_of_inUse used
        rw [portDownRecord_both used target requester] at taken
        exact ⟨_, taken, record, freeList, others, (onlyFlags_freeRecord used).withdraws,
          flagged_freeRecord_fall (s := u) used, fun elsewhere => absurd requester elsewhere, fun _ => ports⟩
      · have ended := callEnded_freed used .portDown
        rw [portDownRecord_target used target requester] at taken
        exact ⟨_, taken, ended.record_self, ended.freeList, ended.record_other, ended.withdraws, ended.fall,
          fun _ => ended.reply, fun own => absurd own requester⟩
    · rw [takeTargetPortDown_of_unclaimed (s := u) unnamed] at taken
      exact ⟨u, taken, rfl, rfl, rfl, rfl⟩
end

section
/-! Replies matched to their calls (R54 to R58): the discards, the end of the call, and the delivery of the rewritten reply. -/

namespace Sys2Proof.Machine
open Sys2Proof

/-! ### What call matching makes of a reply (R54, R55) -/

/-- R55: a reply on port p passes the checks against record c. -/
def State.replyPasses (s : State) (p : Port) (h : Header) (c : CallRecord) : Prop :=
  p = c.tgtPort ∧ h.src = c.tgtStation ∧ h.svc = c.tgtSvc ∧ h.dst = c.reqStation ∧ s.effectiveRing p h ≤ c.carriedRing

theorem replyFits_iff (s : State) (p : Port) (h : Header) (c : CallRecord) :
    replyFits p h (s.effectiveRing p h) c = true ↔ s.replyPasses p h c := by
  simp [replyFits, State.replyPasses, and_assoc]

/-- R54, R55: a reply that is discarded with a flag. -/
def State.discardedWith (s : State) (e : EventFlag) : State := (s.raise (.event e)).discarded

section
variable {s : State} {h : Header} (p : Port) (b : BufIx) (r : RuleIx) (len : Nat)

theorem matchReply_stale (unnamed : s.claimed h.tag = none) :
    s.matchReply p b h r len = (s.discardedWith .staleReply, discardOutcome) := by
  rw [State.matchReply, unnamed]
  rfl

theorem matchReply_mismatched {i : CallIx} (named : s.claimed h.tag = some i) (fails : ¬ s.replyPasses p h (s.record i)) :
    s.matchReply p b h r len = (s.discardedWith .replyMismatch, discardOutcome) := by
  rw [State.matchReply, named]
  exact if_neg (by rwa [replyFits_iff])

/-- R52, R54: the call is ended before its reply is delivered. -/
theorem matchReply_passed {i : CallIx} (named : s.claimed h.tag = some i) (passes : s.replyPasses p h (s.record i)) :
    s.matchReply p b h r len = ((s.withdrawn i).freeRecord i).deliverReply b h r (s.record i) len := by
  rw [State.matchReply, named, ← withdrawIfQueued_eq]
  exact if_pos (by rwa [replyFits_iff])

end

theorem flagged_discardedWith (s : State) (e : EventFlag) : (s.discardedWith e).flagged (.event e) := flagged_raise s _

theorem counters_discardedWith (s : State) (e : EventFlag) : (s.discardedWith e).events.counters
    = { s.events.counters with discarded := s.events.counters.discarded + 1 } := by
  simp only [State.discardedWith, State.discarded, State.modCount_events, (onlyFlags_raise s (.event e)).counters]

/-! ### The delivery of the rewritten reply (R56, R57) -/

/-- R56: the entry of the rewritten reply. -/
def State.replyEntry (s : State) (b : BufIx) (h : Header) (r : RuleIx) (c : CallRecord) (len : Nat) : QueueEntry :=
  newEntry .forwarded (replyHeader (s.rule r) h c len) (some b) none (s.rule r).oneShot none

section
variable {s : State} (b : BufIx) (h : Header) {r : RuleIx} {c : CallRecord} (len : Nat)

theorem deliverReply_accepted (room : s.accepts c.reqPort (.data (s.rule r).qclass) = true) :
    ∃ u, s.deliver c.reqPort (.data (s.rule r).qclass) (s.replyEntry b h r c len) = some u
      ∧ s.deliverReply b h r c len = (u.forwarded, 0) := by
  have delivered := deliver_eq_some.mpr ⟨room, Eq.refl ((s.setQueue _ _ (_ ++ [s.replyEntry b h r c len])).holdOpt _)⟩
  refine ⟨_, delivered, ?_⟩
  unfold State.replyEntry at delivered
  rw [State.deliverReply, delivered]
  rfl

theorem deliverReply_refused (full : s.accepts c.reqPort (.data (s.rule r).qclass) = false) :
    s.deliverReply b h r c len = (s.discardedWith .replyLost, discardOutcome) := by
  rw [State.deliverReply, deliver_eq_none.mpr full]
  rfl

end

/-- What becomes of a reply that passes the checks of R55: the call of record i is ended, and behind that the reply joins the data
queue of its requester or is lost. -/
structure ReplyTaken (s w : State) (b : BufIx) (h : Header) (r : RuleIx) (i : CallIx) (len : Nat) : Prop where
  awaiting : ∀ q, (w.port q).awaiting = (s.port q).awaiting
  queue : ∀ q k, q ≠ (s.record i).reqPort ∨ k ≠ .data (s.rule r).qclass → w.queue q k = s.queue q k
  calls : w.calls = (s.freeing i).calls
  withdraws : w.wires.withdraws = s.wires.withdraws ++ s.withdrawOf i
  fall : s.recordsInUse = s.settings.highMark.toNat → w.flagged (.fall .callsHigh)
  delivered : s.accepts (s.record i).reqPort (.data (s.rule r).qclass) = true →
    w.queue (s.record i).reqPort (.data (s.rule r).qclass)
        = s.queue (s.record i).reqPort (.data (s.rule r).qclass) ++ [s.replyEntry b h r (s.record i) len]
      ∧ w.events.counters = { s.events.counters with forwarded := s.events.counters.forwarded + 1 }
  lost : s.accepts (s.record i).reqPort (.data (s.rule r).qclass) = false → w.flagged (.event .replyLost)
    ∧ w.events.counters = { s.events.counters with discarded := s.events.counters.discarded + 1 }

/-- R52, R57: the delivery of a reply finds its call ended, and reads nothing that the end of the call changed. -/
theorem replyTaken_deliverReply {s : State} {i : CallIx} (used : (s.record i).inUse = true) (b : BufIx) (h : Header)
    (r : RuleIx) (len : Nat) :
    ReplyTaken s (((s.withdrawn i).freeRecord i).deliverReply b h r (s.record i) len).1 b h r i len := by
  have freed : OnlyFlags ((s.withdrawn i).freeing i) ((s.withdrawn i).freeRecord i) := onlyFlags_freeRecord used
  have fall := flagged_freeRecord_fall (s := s.withdrawn i) used
  have rule : ((s.withdrawn i).freeRecord i).rule r = s.rule r := by rw [State.rule, freed.tables]; rfl
  have entry : ((s.withdrawn i).freeRecord i).replyEntry b h r (s.record i) len = s.replyEntry b h r (s.record i) len := by
    rw [State.replyEntry, rule]
    rfl
  have accepts : ((s.withdrawn i).freeRecord i).accepts (s.record i).reqPort (.data (s.rule r).qclass)
      = s.accepts (s.record i).reqPort (.data (s.rule r).qclass) := accepts_of_ports freed.ports freed.tables _ _
  cases room : s.accepts (s.record i).reqPort (.data (s.rule r).qclass) with
  | true =>
    obtain ⟨u, joined, outcome⟩ := deliverReply_accepted (c := s.record i) (r := r) b h len (rule ▸ accepts.trans room)
    rw [rule, entry] at joined
    have joins := joinsQueue_deliver joined
    rw [outcome]
    constructor
    · exact fun q => (joins.awaiting q).trans (by rw [freed.port]; rfl)
    · exact fun q k other => (joins.queue q k other).trans (freed.queue q k)
    · exact joins.calls.trans freed.calls
    · exact joins.withdraws.trans freed.withdraws
    · exact fun atMark => joins.flagged _ (fall atMark)
    · refine fun _ => ⟨(queue_delivered joined).trans (congrArg (· ++ _) (freed.queue _ _)), ?_⟩
      show { u.events.counters with forwarded := u.events.counters.forwarded + 1 } = _
      rw [joins.counters, freed.counters]
      rfl
    · exact fun full => absurd (room.symm.trans full) (by simp)
  | false =>
    have raised := onlyFlags_raise ((s.withdrawn i).freeRecord i) (.event .replyLost)
    rw [deliverReply_refused b h len (rule ▸ accepts.trans room)]
    constructor
    · exact fun q => (congrArg PortSt.awaiting (raised.port q)).trans (by rw [freed.port]; rfl)
    · exact fun q k _ => (raised.queue q k).trans (freed.queue q k)
    · exact raised.calls.trans freed.calls
    · exact raised.withdraws.trans freed.withdraws
    · exact fun atMark => raised.flagged _ (fall atMark)
    · exact fun free => absurd (room.symm.trans free) (by simp)
    · refine fun _ => ⟨flagged_discardedWith _ _, (counters_discardedWith _ _).trans ?_⟩
      rw [freed.counters]
      rfl

/-! ### What call matching leaves alone (R54 to R58) -/

/-- From s to w nothing but the call that a tag names, and data queue d of its requester, was reached by a reply. -/
structure ReachesCall (tag : Tag) (d : DataQ) (s w : State) : Prop where
  awaiting : ∀ q, (w.port q).awaiting = (s.port q).awaiting
  g : ∀ q, w.queue q .g = s.queue q .g
  record : ∀ j, s.claimed tag ≠ some j → w.record j = s.record j
  data : ∀ q k, (∀ i, s.claimed tag = some i → q ≠ (s.record i).reqPort ∨ k ≠ d) → w.queue q (.data k) = s.queue q (.data k)

theorem reachesCall_discardedWith (s : State) (tag : Tag) (d : DataQ) (e : EventFlag) :
    ReachesCall tag d s (s.discardedWith e) := by
  have raised := onlyFlags_raise s (.event e)
  exact ⟨fun q => congrArg PortSt.awaiting (raised.port q), fun q => raised.queue q _, fun j _ => raised.record j,
    fun q k _ => raised.queue q _⟩

theorem reachesCall_ofTaken {s w : State} {b : BufIx} {h : Header} {r : RuleIx} {i : CallIx} {len : Nat}
    (named : s.claimed h.tag = some i) (taken : ReplyTaken s w b h r i len) : ReachesCall h.tag (s.rule r).qclass s w where
  awaiting := taken.awaiting
  g := fun q => taken.queue q _ (.inr (by simp))
  record := fun j other => by
    rw [State.record, taken.calls]
    exact (record_freeing s i j).trans (if_neg fun same => other (by rw [← same, named]))
  data := fun q k other => taken.queue q _ (by simpa using other i named)

theorem reachesCall_matchReply (s : State) (p : Port) (b : BufIx) (h : Header) (r : RuleIx) (len : Nat) :
    ReachesCall h.tag (s.rule r).qclass s (s.matchReply p b h r len).1 := by
  cases named : s.claimed h.tag with
  | none =>
    rw [matchReply_stale p b r len named]
    exact reachesCall_discardedWith s _ _ _
  | some i =>
    by_cases passes : s.replyPasses p h (s.record i)
    · rw [matchReply_passed p b r len named passes]
      exact reachesCall_ofTaken named (replyTaken_deliverReply (inUse_of_claimed named) b h r len)
    · rw [matchReply_mismatched p b r len named passes]
      exact reachesCall_discardedWith s _ _ _

/-! ### What comes behind a matched decision sends no withdraw (R18) -/

theorem withdraws_mirrorCopy (s : State) (p : Port) (b : BufIx) (r : RuleIx) (o : Byte) :
    (s.mirrorCopy p b r o).wires.withdraws = s.wires.withdraws := by
  rcases mirrorCopy_cases s p b r o with e | ⟨m, e⟩ | e <;> rw [e]
  · rfl
  · exact (onlyFlags_raise s _).withdraws

theorem withdraws_decision_matched {s t : State} {p : Port} {b : BufIx} {bs : List BufIx} {x : Settled} {r : RuleIx}
    (run : s.resetAsserted = false) (front : (s.port p).awaiting = b :: bs)
    (settled : s.judgeArrival p (Header.decode (s.buffer b).image) = x) (matched : x.matchedRule = some r)
    (taken : exec (.decision p) s = .next t) : t.wires.withdraws
      = ((s.takesFront p bs).primary p b (Header.decode (s.buffer b).image) x).1.wires.withdraws := by
  rw [exec_decision run front, settled, applySettled_matched matched] at taken
  obtain rfl := Host.Outcome.next.inj taken
  rw [(onlyHolding_release _ b).withdraws, withdraws_mirrorCopy]

end Sys2Proof.Machine

open Sys2Proof Sys2Proof.Machine

/-- Settles O27: call matching discards the reply or ends its call and delivers it, and what comes behind answers nobody. -/
theorem replyIsMatchedToItsCall : Obligations.ReplyIsMatchedToItsCall := by
  intro s p b bs r len run front h e k settled
  obtain ⟨t, taken, quiet, -⟩ := exec_decision_matched run front settled rfl
  have withdraws := withdraws_decision_matched run front settled rfl taken
  let s₀ := s.takesFront p bs
  have quiet : AnswersNobody (s₀.matchReply p b h r len).1 t := quiet
  have withdraws : t.wires.withdraws = (s₀.matchReply p b h r len).1.wires.withdraws := withdraws
  have discarded (f : EventFlag) (outcome : (s₀.matchReply p b h r len).1 = s₀.discardedWith f) :
      t.calls = s.calls ∧ t.flagged (.event f) ∧ t.events.counters.discarded = k.discarded + 1 := by
    have raised := onlyFlags_raise s₀ (.event f)
    rw [outcome] at quiet
    refine ⟨quiet.calls.trans raised.calls, quiet.flagged _ (flagged_discardedWith s₀ f), ?_⟩
    rw [quiet.discarded, counters_discardedWith]
    rfl
  refine ⟨⟨t, taken, ?_⟩, fun unnamed => ⟨t, taken, ?_⟩, ?_⟩
  · have reached := reachesCall_matchReply s₀ p b h r len
    refine ⟨?_, fun q => ?_, fun j other => ?_, fun q d other => ?_⟩
    · rw [quiet.awaiting, reached.awaiting]
      simp [s₀, State.takesFront]
    · rw [quiet.queue q _ (by simp), reached.g, queue_takesFront]
    · rw [State.record, quiet.calls]
      exact reached.record j other
    · rw [quiet.queue q _ (by simp), reached.data q d other, queue_takesFront]
  · exact discarded .staleReply (congrArg Prod.fst (matchReply_stale (s := s₀) p b r len unnamed))
  intro i named c fits
  refine ⟨fun fails => ⟨t, taken, ?_⟩, fun passes => ⟨t, taken, ?_⟩⟩
  · exact discarded .replyMismatch (congrArg Prod.fst (matchReply_mismatched (s := s₀) p b r len named fails))
  · have replied := replyTaken_deliverReply (s := s₀) (inUse_of_claimed named) b h r len
    rw [← matchReply_passed (s := s₀) p b r len named passes] at replied
    have accepts : s₀.accepts c.reqPort (.data e.qclass) = s.accepts c.reqPort (.data e.qclass) := accepts_takesFront s p _ bs _
    have calls : t.calls = (s₀.freeing i).calls := quiet.calls.trans replied.calls
    refine ⟨?_, congrArg CallTable.freeList calls, withdraws.trans replied.withdraws,
      fun atMark => quiet.flagged _ (replied.fall atMark), fun room => ?_, fun full => ?_⟩
    · rw [State.record, calls]
      exact (record_freeing s₀ i i).trans (if_pos rfl)
    · obtain ⟨joined, counters⟩ := replied.delivered (accepts.trans room)
      refine ⟨?_, ?_⟩
      · rw [quiet.queue _ _ (by simp)]
        exact joined.trans (by rw [queue_takesFront]; rfl)
      · rw [quiet.forwarded, counters]
        rfl
    · obtain ⟨told, counters⟩ := replied.lost (accepts.trans full)
      refine ⟨quiet.flagged _ told, ?_, ?_⟩
      · rw [quiet.discarded, counters]
        rfl
      · rw [quiet.forwarded, counters]
        rfl
end

section
/-! Buffers and their holders (R92 to R94): the account of the holds, with what is on its way between two holders, and the rules of
the operations that move a hold. -/

namespace Sys2Proof.Machine
open Sys2Proof

/-! ### The holders of a state (R93) -/

/-- The buffers a list of queue entries names, one for each entry. -/
def namedBuffers (es : List QueueEntry) : List (Option BufIx) := es.map QueueEntry.buffer

@[simp] theorem namedBuffers_nil : namedBuffers [] = [] := rfl

@[simp] theorem namedBuffers_cons (e : QueueEntry) (es : List QueueEntry) :
    namedBuffers (e :: es) = e.buffer :: namedBuffers es := rfl

@[simp] theorem namedBuffers_append (es fs : List QueueEntry) :
    namedBuffers (es ++ fs) = namedBuffers es ++ namedBuffers fs := List.map_append

/-- A change of the entries of a list that leaves the buffer of each. -/
theorem namedBuffers_map (f : QueueEntry → QueueEntry) (same : ∀ e, (f e).buffer = e.buffer) (es : List QueueEntry) :
    namedBuffers (es.map f) = namedBuffers es := by
  simp [namedBuffers, same]

/-- What a filter keeps and what it drops name the buffers of the list between them. -/
theorem namedBuffers_filter_perm (f : QueueEntry → Bool) (es : List QueueEntry) :
    (namedBuffers (es.filter f) ++ namedBuffers (es.filter (fun e => !f e))).Perm (namedBuffers es) := by
  rw [← namedBuffers_append]
  exact (List.filter_append_perm f es).map _

/-- The holds of a port's frames awaiting decision and of its queue entries. -/
def PortSt.held (x : PortSt) : List (Option BufIx) := x.awaiting.map some ++ namedBuffers x.allEntries

/-- The holds of the entries of the management input queue. -/
def mgmtHeld (es : List MgmtEntry) : List (Option BufIx) := es.map (fun e => some e.buffer)

theorem mgmtHeld_filter_perm (f : MgmtEntry → Bool) (es : List MgmtEntry) :
    (mgmtHeld (es.filter f) ++ mgmtHeld (es.filter (fun e => !f e))).Perm (mgmtHeld es) := by
  rw [mgmtHeld, mgmtHeld, ← List.map_append]
  exact (List.filter_append_perm f es).map _

/-- Every hold of a state, by the buffer it is on. -/
def State.held (s : State) : List (Option BufIx) :=
  (s.port 0).held ++ (s.port 1).held ++ (s.port 2).held ++ (s.port 3).held ++ mgmtHeld s.mgmt.queue

theorem PortSt.holders_eq_count (x : PortSt) (b : BufIx) : x.holders b = x.held.count (some b) := by
  have entries : x.allEntries.countP (fun e => e.buffer == some b) = (namedBuffers x.allEntries).count (some b) := by
    rw [namedBuffers, List.count, List.countP_map]
    rfl
  rw [PortSt.holders, PortSt.held, List.count_append, entries, List.count_map_of_injective _ _ (Option.some_injective _)]

theorem State.holders_eq_count (s : State) (b : BufIx) : s.holders b = s.held.count (some b) := by
  have entries : s.mgmt.queue.countP (fun e => e.buffer == b) = (mgmtHeld s.mgmt.queue).count (some b) := by
    rw [mgmtHeld, List.count, List.countP_map]
    simp [Function.comp_def]
  simp only [State.holders, State.held, List.count_append, entries, PortSt.holders_eq_count]

/-- What a change of one port does to the holds of the state. -/
theorem held_modPort (s : State) (p : Port) (f : PortSt → PortSt) :
    ((s.modPort p f).held ++ (s.port p).held).Perm (s.held ++ (f (s.port p)).held) := by
  rw [List.perm_iff_count]
  intro o
  simp only [State.held, List.count_append, State.port_modPort, State.modPort_mgmt]
  fin_cases p <;> simp <;> omega

/-- What the exchange of one queue does to the holds of a port. -/
theorem held_setQueue (x : PortSt) (k : QueueId) (es : List QueueEntry) :
    ((x.setQueue k es).held ++ namedBuffers (x.queue k)).Perm (x.held ++ namedBuffers es) := by
  rw [List.perm_iff_count]
  intro o
  simp only [PortSt.held, PortSt.allEntries, namedBuffers_append, List.count_append, setQueue_awaiting]
  cases k with
  | data d => fin_cases d <;> simp [PortSt.setQueue, PortSt.queue] <;> omega
  | g => simp [PortSt.setQueue, PortSt.queue]; omega
  | m => simp [PortSt.setQueue, PortSt.queue]; omega

/-! ### The account of the holds (R93) -/

/-- Every buffer's hold count is the number of its holders and of the holds of `out`, which are on their way: taken from a holder
that has gone and not yet released, or not yet handed to a new holder. -/
def Accounted (s : State) (out : List (Option BufIx)) : Prop :=
  ∀ b : BufIx, (s.buffer b).holds = s.held.count (some b) + out.count (some b)

theorem accounted_nil_iff (s : State) : Accounted s [] ↔ HoldsAreHolders s := by
  simp [Accounted, HoldsAreHolders, State.holders_eq_count]

/-- Holds that pass between the holders of a state and those on their way. -/
theorem accounted_moved {s t : State} {gave gone out : List (Option BufIx)} (pool : t.pool = s.pool)
    (moved : (t.held ++ gone).Perm (s.held ++ gave)) (h : Accounted s (gave ++ out)) : Accounted t (gone ++ out) := by
  intro b
  have count := (List.perm_iff_count.mp moved) (some b)
  have before := h b
  simp only [List.count_append] at count before ⊢
  rw [State.buffer, pool]
  show (s.buffer b).holds = _
  omega

theorem accounted_modPort {s : State} {p : Port} {f : PortSt → PortSt} {gave gone out : List (Option BufIx)}
    (moved : ((f (s.port p)).held ++ gone).Perm ((s.port p).held ++ gave)) (h : Accounted s (gave ++ out)) :
    Accounted (s.modPort p f) (gone ++ out) := by
  refine accounted_moved (s := s) rfl ?_ h
  rw [List.perm_iff_count]
  intro o
  have whole := (List.perm_iff_count.mp (held_modPort s p f)) o
  have part := (List.perm_iff_count.mp moved) o
  simp only [List.count_append] at whole part ⊢
  omega

theorem accounted_setQueue {s : State} {p : Port} {k : QueueId} {es : List QueueEntry} {gave gone out : List (Option BufIx)}
    (moved : (namedBuffers es ++ gone).Perm (namedBuffers (s.queue p k) ++ gave)) (h : Accounted s (gave ++ out)) :
    Accounted (s.setQueue p k es) (gone ++ out) := by
  refine accounted_modPort ?_ h
  rw [List.perm_iff_count]
  intro o
  have whole := (List.perm_iff_count.mp (held_setQueue (s.port p) k es)) o
  have part := (List.perm_iff_count.mp moved) o
  simp only [List.count_append, State.queue] at whole part ⊢
  omega

/-- Entries that leave a queue leave their holds on the way. -/
theorem accounted_taken {s : State} {p : Port} {k : QueueId} {es : List QueueEntry} {gone out : List (Option BufIx)}
    (moved : (namedBuffers es ++ gone).Perm (namedBuffers (s.queue p k))) (h : Accounted s out) :
    Accounted (s.setQueue p k es) (gone ++ out) :=
  accounted_setQueue (gave := []) (by simpa using moved) h

/-- Entries that join or leave the management input queue take up or give up their holds. -/
theorem accounted_mgmtQueue {s : State} {es : List MgmtEntry} {gave gone out : List (Option BufIx)}
    (moved : (mgmtHeld es ++ gone).Perm (mgmtHeld s.mgmt.queue ++ gave)) (h : Accounted s (gave ++ out)) :
    Accounted { s with mgmt := { s.mgmt with queue := es } } (gone ++ out) := by
  refine accounted_moved (s := s) rfl ?_ h
  rw [List.perm_iff_count]
  intro o
  have part := (List.perm_iff_count.mp moved) o
  simp only [State.held, List.count_append] at part ⊢
  simp only [State.port]
  omega

/-- R93: an added holder raises the hold count by 1. -/
theorem accounted_holdOpt {s : State} {out : List (Option BufIx)} (h : Accounted s out) (o : Option BufIx) :
    Accounted (s.holdOpt o) (o :: out) := by
  intro c
  cases o with
  | none => simpa [State.holdOpt] using h c
  | some b =>
    have before := h c
    rw [show (s.holdOpt (some b)).held = s.held from rfl, List.count_cons, State.holdOpt, State.hold, State.buffer_modBuffer]
    by_cases same : b = c
    · subst same
      simp [before]
      omega
    · simp [same, before]

theorem held_of_ports {s t : State} (ports : ∀ p, (t.port p).held = (s.port p).held) (mgmt : t.mgmt.queue = s.mgmt.queue) :
    t.held = s.held := by
  simp only [State.held, ports, mgmt]

/-- A judgement of own HOLDING reaches no holder. -/
theorem OnlyHolding.held {s t : State} (h : OnlyHolding s t) : t.held = s.held := by
  refine held_of_ports (fun p => ?_) (congrArg Mgmt.queue h.mgmt)
  rw [(h.ports p).1]
  rfl

/-- R94: the release of a hold that is on its way. -/
theorem accounted_releaseOpt {s : State} {o : Option BufIx} {out : List (Option BufIx)} (h : Accounted s (o :: out)) :
    Accounted (s.releaseOpt o) out := by
  intro c
  have before := h c
  cases o with
  | none => simpa [State.releaseOpt] using before
  | some b =>
    rw [List.count_cons] at before
    rw [State.releaseOpt, (onlyHolding_release s b).held, buffer_release]
    by_cases same : b = c
    · subst same
      simp at before
      simp [before]
    · simpa [same] using before

theorem accounted_release {s : State} {b : BufIx} {out : List (Option BufIx)} (h : Accounted s (some b :: out)) :
    Accounted (s.release b) out := accounted_releaseOpt h

/-- Holds on their way that are released one after the other. -/
theorem accounted_foldl {α : Type} {f : State → α → State} (held : α → Option BufIx)
    (settles : ∀ s a out, Accounted s (held a :: out) → Accounted (f s a) out) (l : List α) {s : State}
    {out : List (Option BufIx)} (h : Accounted s (l.map held ++ out)) : Accounted (l.foldl f s) out := by
  induction l generalizing s with
  | nil => exact h
  | cons a l ih => exact ih (settles s a _ h)

/-! ### What keeps the account -/

/-- From s to t every account of the holds stays right. -/
def KeepsAccount (s t : State) : Prop := ∀ out, Accounted s out → Accounted t out

namespace KeepsAccount

theorem refl (s : State) : KeepsAccount s s := fun _ h => h

theorem trans {s t u : State} (h : KeepsAccount s t) (k : KeepsAccount t u) : KeepsAccount s u := fun out a => k out (h out a)

/-- `trans` with the later change named first. -/
theorem after {s t u : State} (k : KeepsAccount t u) (h : KeepsAccount s t) : KeepsAccount s u := h.trans k

theorem ite {s t u : State} {c : Prop} [Decidable c] (h : KeepsAccount s t) (k : KeepsAccount s u) :
    KeepsAccount s (if c then t else u) := by
  split
  · exact h
  · exact k

theorem foldl {α : Type} {f : State → α → State} (h : ∀ s a, KeepsAccount s (f s a)) (l : List α) (s : State) :
    KeepsAccount s (l.foldl f s) := by
  induction l generalizing s with
  | nil => exact refl s
  | cons a l ih => exact (h s a).trans (ih (f s a))

/-- A change that reaches neither a hold count nor a holder. -/
theorem ofHeld {s t : State} (holds : ∀ b, (t.buffer b).holds = (s.buffer b).holds) (held : t.held = s.held) :
    KeepsAccount s t := fun out h b => by
  rw [holds, held]
  exact h b

/-- A change that reaches no port, no buffer and no entry of the input queue. -/
theorem ofPorts {s t : State} (ports : t.ports = s.ports) (pool : t.pool = s.pool) (mgmt : t.mgmt.queue = s.mgmt.queue) :
    KeepsAccount s t :=
  ofHeld (fun b => by rw [State.buffer, pool]; rfl) (held_of_ports (fun p => by rw [port_of_ports ports]) mgmt)

theorem ofFlags {s t : State} (h : OnlyFlags s t) : KeepsAccount s t := ofPorts h.ports h.pool (congrArg Mgmt.queue h.mgmt)

/-- Where nothing is on its way, the account is that of R93. -/
theorem holdsAreHolders {s t : State} (k : KeepsAccount s t) (h : HoldsAreHolders s) : HoldsAreHolders t :=
  (accounted_nil_iff t).mp (k [] ((accounted_nil_iff s).mpr h))

/-- A change of one port that leaves its holders. -/
theorem ofPort {s : State} {p : Port} {f : PortSt → PortSt} (held : ∀ x, (f x).held = x.held) :
    KeepsAccount s (s.modPort p f) := fun _ h =>
  accounted_modPort (gave := []) (gone := []) (by rw [held]) h

end KeepsAccount

end Sys2Proof.Machine
end

section
/-! The hold counts stay the numbers of the holders (R93): what every operation does to the account of the holds, and the statement
about every step. -/

namespace Sys2Proof.Machine
open Sys2Proof

/-! ### Flags, judgements, control symbols and counts -/

theorem keepsAccount_raise (s : State) (f : Flag) : KeepsAccount s (s.raise f) := .ofFlags (onlyFlags_raise s f)

theorem keepsAccount_judge (s : State) (l : Level) (was : Bool) : KeepsAccount s (s.judge l was) :=
  .ofFlags (onlyFlags_judge s l was)

theorem keepsAccount_judgePort (s : State) (p : Port) (before : State) : KeepsAccount s (s.judgePort p before) :=
  .ofFlags (onlyFlags_judgePort s p before)

theorem keepsAccount_judgeHold (s : State) (p : Port) : KeepsAccount s (s.judgeHold p) :=
  .ofHeld (fun b => by rw [State.buffer, pool_judgeHold]; rfl) (onlyHolding_judgeHold s p).held

theorem keepsAccount_pushControl (s : State) (p : Port) (c : Control) : KeepsAccount s (s.pushControl p c) := .ofPort fun _ => rfl

theorem keepsAccount_modPortCount (s : State) (p : Port) (f : PortCounters → PortCounters) :
    KeepsAccount s (s.modPortCount p f) := .ofPort fun _ => rfl

theorem keepsAccount_setReception (s : State) (p : Port) (r : Reception) : KeepsAccount s (s.setReception p r) :=
  .ofPort fun _ => rfl

theorem keepsAccount_modCount (s : State) (f : GatewayCounters → GatewayCounters) : KeepsAccount s (s.modCount f) :=
  .ofPorts rfl rfl rfl

theorem keepsAccount_addClaim (s : State) (c : Claim) : KeepsAccount s (s.addClaim c) := .ofPorts rfl rfl rfl

theorem keepsAccount_elapse (s : State) (d : Nat) : KeepsAccount s (s.elapse d) :=
  .ofHeld (fun _ => rfl) (held_of_ports (fun p => by rw [State.port_elapse]; rfl) rfl)

/-! ### Queues and deliveries (R73, R74) -/

theorem setQueue_holdOpt (s : State) (p : Port) (k : QueueId) (es : List QueueEntry) (o : Option BufIx) :
    (s.setQueue p k es).holdOpt o = (s.holdOpt o).setQueue p k es := by cases o <;> rfl

/-- R73: the entry of an accepted delivery is a new holder of the buffer it names. -/
theorem keepsAccount_deliver {s t : State} {p : Port} {k : QueueId} {e : QueueEntry} (delivered : s.deliver p k e = some t) :
    KeepsAccount s t := by
  obtain ⟨_, rfl⟩ := deliver_eq_some.mp delivered
  intro out h
  have handed : Accounted ((s.holdOpt e.buffer).setQueue p k (s.queue p k ++ [e])) out :=
    accounted_setQueue (gave := [e.buffer]) (gone := [])
      (by rw [queue_of_ports (ports_holdOpt s e.buffer)]; simp) (accounted_holdOpt h e.buffer)
  rwa [setQueue_holdOpt]

theorem keepsAccount_offerReply (s : State) (p : Port) (e : QueueEntry) : KeepsAccount s (s.offerReply p e) := by
  unfold State.offerReply
  split
  · next delivered => exact keepsAccount_deliver delivered
  · exact keepsAccount_raise s _

theorem keepsAccount_sendCallReply (s : State) (r : CallRecord) (st : Status) : KeepsAccount s (s.sendCallReply r st) :=
  keepsAccount_offerReply s _ _

theorem keepsAccount_reportRestart (s : State) : KeepsAccount s s.reportRestart := by
  unfold State.reportRestart
  split <;> exact .ofPorts rfl rfl rfl

/-- R74, R83: what leaves a queue gives up its hold. -/
theorem accounted_entryLeft {s : State} {e : QueueEntry} {out : List (Option BufIx)} (h : Accounted s (e.buffer :: out)) :
    Accounted (s.entryLeft e) out :=
  accounted_releaseOpt (KeepsAccount.ite (keepsAccount_reportRestart s) (.refl s) _ h)

theorem accounted_abortEntry (p : Port) {s : State} {e : QueueEntry} {out : List (Option BufIx)}
    (h : Accounted s (e.buffer :: out)) : Accounted (s.abortEntry p e) out := by
  have left := accounted_entryLeft
    (keepsAccount_modPortCount s p (fun c => { c with txDropped := c.txDropped + 1 }) _ h)
  unfold State.abortEntry
  split
  · exact keepsAccount_addClaim _ _ _ left
  · exact left

theorem keepsAccount_abortQueue (s : State) (p : Port) (k : QueueId) : KeepsAccount s (s.abortQueue p k) := by
  intro out h
  refine accounted_foldl QueueEntry.buffer (fun _ _ _ => accounted_abortEntry p) _ (accounted_taken ?_ h)
  rw [namedBuffers_map (fun e => { e with noRetry := .abort }) (fun _ => rfl)]
  exact namedBuffers_filter_perm _ _

/-! ### The call table, whose replies and withdraws name no buffer -/

theorem keepsAccount_freeRecord (s : State) (i : CallIx) : KeepsAccount s (s.freeRecord i) := by
  unfold State.freeRecord
  refine .ite ?_ (.refl s)
  exact (keepsAccount_judge _ _ _).after (.ofPorts rfl rfl rfl)

theorem keepsAccount_openRecord (s : State) (i : CallIx) (r : CallRecord) : KeepsAccount s (s.openRecord i r) :=
  .trans (t := s.opening i r) (.ofPorts rfl rfl rfl) (.ofFlags (onlyFlags_openRecord s i r))

theorem keepsAccount_withdrawIfQueued (s : State) (i : CallIx) : KeepsAccount s (s.withdrawIfQueued i) :=
  .ite (.ofPorts rfl rfl rfl) (.refl s)

theorem keepsAccount_withdrawn_freed (s : State) (i : CallIx) : KeepsAccount s ((s.withdrawIfQueued i).freeRecord i) :=
  (keepsAccount_withdrawIfQueued s i).trans (keepsAccount_freeRecord _ i)

theorem keepsAccount_freed_answered (s : State) (i : CallIx) (r : CallRecord) (st : Status) :
    KeepsAccount s ((s.freeRecord i).sendCallReply r st) := (keepsAccount_freeRecord s i).trans (keepsAccount_sendCallReply _ r st)

theorem keepsAccount_portDownRecord (p : Port) (s : State) (i : CallIx) : KeepsAccount s (s.portDownRecord p i) := by
  unfold State.portDownRecord
  exact .ite (keepsAccount_freed_answered s i _ _)
    (.ite (keepsAccount_withdrawn_freed s i) (.ite (keepsAccount_freeRecord s i) (.refl s)))

theorem keepsAccount_takeClaim (s : State) (c : Claim) : KeepsAccount s (s.takeClaim c) := by
  cases c with
  | delivered p tag =>
    show KeepsAccount s (s.takeDelivered tag)
    unfold State.takeDelivered
    split
    · exact .refl s
    · exact .ite (.ofPorts rfl rfl rfl) (.refl s)
  | undeliverable p tag abort =>
    show KeepsAccount s (s.takeUndeliverable tag abort)
    unfold State.takeUndeliverable
    split
    · exact .refl s
    · exact .ite (.ite (keepsAccount_freed_answered s _ _ _)
        ((keepsAccount_freed_answered s _ _ _).trans (keepsAccount_raise _ _))) (.refl s)
  | targetPortDown p tag =>
    show KeepsAccount s (s.takeTargetPortDown p tag)
    unfold State.takeTargetPortDown
    split
    · exact .refl s
    · exact keepsAccount_portDownRecord p s _
  | portDown p => exact .foldl (keepsAccount_portDownRecord p) _ s

theorem keepsAccount_takeOldest (s : State) (sort : Claim → Bool) : KeepsAccount s (s.takeOldest sort) := by
  unfold State.takeOldest
  split
  · exact .refl s
  · exact (keepsAccount_takeClaim _ _).after (.ofPorts rfl rfl rfl)

theorem keepsAccount_settleDemands (s : State) (p : Port) : KeepsAccount s (s.settleDemands p) :=
  (KeepsAccount.foldl keepsAccount_takeClaim _ _).after (.ofPorts rfl rfl rfl)

theorem keepsAccount_withdrawFrom (p : Port) (tag : Tag) (s : State) (q : DataQ) : KeepsAccount s (s.withdrawFrom p tag q) := by
  have marked (e : QueueEntry) : (if e.callTag = some tag then markWithdraw e else e).buffer = e.buffer := by
    unfold markWithdraw
    split
    · split <;> rfl
    · rfl
  intro out h
  refine accounted_foldl QueueEntry.buffer (fun _ _ _ => accounted_entryLeft) _ (accounted_taken ?_ h)
  rw [namedBuffers_map _ marked]
  exact List.perm_append_comm.trans (namedBuffers_filter_perm (fun e => e.callTag == some tag && !e.inTransmission) _)

theorem keepsAccount_withdrawStep (s : State) (p : Port) (tag : Tag) : KeepsAccount s (s.withdrawStep p tag) := by
  unfold State.withdrawStep
  refine .ite ?_ (.refl s)
  exact (KeepsAccount.foldl (keepsAccount_withdrawFrom p tag) _ _).after (.ofPorts rfl rfl rfl)

theorem keepsAccount_callExpiry (s : State) (i : CallIx) : KeepsAccount s (s.callExpiry i) := by
  have expired (s : State) : KeepsAccount s (s.expire i) :=
    (((keepsAccount_withdrawn_freed s i).trans (keepsAccount_sendCallReply _ _ _)).trans (keepsAccount_raise _ _)).trans
      (keepsAccount_modCount _ _)
  unfold State.callExpiry
  exact .ite ((keepsAccount_elapse s _).trans (expired _)) (.refl s)

/-! ### Port states (R88, R128, R129) -/

theorem accounted_flushEntry (p : Port) {s : State} {e : QueueEntry} {out : List (Option BufIx)}
    (h : Accounted s (e.buffer :: out)) : Accounted (s.flushEntry p e) out := by
  unfold State.flushEntry
  split
  · exact keepsAccount_addClaim _ _ _ (accounted_entryLeft h)
  · exact accounted_entryLeft h

theorem keepsAccount_dropMgmt (s : State) (p : Port) : KeepsAccount s (s.dropMgmt p) := by
  intro out h
  refine accounted_foldl (fun e : MgmtEntry => some e.buffer) (fun _ _ _ => accounted_release) _
    (accounted_mgmtQueue (gave := []) ?_ h)
  rw [List.append_nil]
  exact List.perm_append_comm.trans (mgmtHeld_filter_perm (fun e => e.port == p) s.mgmt.queue)

/-- R88, R128: the flushed entries give up their holds; the frames awaiting decision keep theirs. -/
theorem keepsAccount_leaveService (s : State) (p : Port) (target : PortState) : KeepsAccount s (s.leaveService p target) := by
  refine (keepsAccount_settleDemands s p).trans (.trans ?_ (.trans (keepsAccount_addClaim _ _) (keepsAccount_dropMgmt _ p)))
  intro out h
  refine accounted_foldl QueueEntry.buffer (fun _ _ _ => accounted_flushEntry p) _ (keepsAccount_judgePort _ _ _ _ ?_)
  refine accounted_modPort (gave := []) ?_ h
  have empty : namedBuffers (portLeft target ((s.settleDemands p).port p)).allEntries = [] := by
    simp [portLeft, PortSt.allEntries]
  rw [PortSt.held, empty]
  simp [PortSt.held, portLeft, namedBuffers]

theorem keepsAccount_enterService (s : State) (p : Port) (target : PortState) : KeepsAccount s (s.enterService p target) :=
  (keepsAccount_judgeHold _ p).after ((keepsAccount_judgePort _ p _).after
    (KeepsAccount.after (.ofPort fun _ => rfl) (keepsAccount_settleDemands s p)))

theorem keepsAccount_transition (s : State) (p : Port) (target : PortState) : KeepsAccount s (s.transition p target) := by
  unfold State.transition
  exact .ite (.ite (.ofPort fun _ => rfl) (keepsAccount_enterService s p target)) (keepsAccount_leaveService s p target)

theorem keepsAccount_raiseScore (s : State) (p : Port) (n : Nat) : KeepsAccount s (s.raiseScore p n) := by
  unfold State.raiseScore
  exact .ite (.ite (keepsAccount_leaveService s p _) ((keepsAccount_judge _ _ _).after (.ofPort fun _ => rfl))) (.refl s)

theorem keepsAccount_lowerScore (s : State) (p : Port) : KeepsAccount s (s.lowerScore p) := by
  unfold State.lowerScore
  exact .ite ((keepsAccount_judge _ _ _).after (.ofPort fun _ => rfl)) (.refl s)

theorem keepsAccount_recoveryRun (s : State) (p : Port) : KeepsAccount s (s.recoveryRun p) := by
  unfold State.recoveryRun
  refine .ite (KeepsAccount.after (.ite ?_ (.refl _)) (.ofPort fun _ => rfl)) (.refl s)
  split
  · exact (keepsAccount_enterService _ p _).trans (keepsAccount_raise _ _)
  · exact .refl _

theorem keepsAccount_clearTally (s : State) (p : Port) : KeepsAccount s (s.clearTally p) :=
  .ite (.ofPort fun _ => rfl) (.refl s)

/-! ### The line (R111 to R117) -/

theorem keepsAccount_handIdleRun (s : State) (p : Port) : KeepsAccount s (s.handIdleRun p) :=
  (keepsAccount_recoveryRun _ p).after ((keepsAccount_judge _ _ _).after (.ofPort fun _ => rfl))

theorem keepsAccount_lineIdleRun (s : State) (p : Port) : KeepsAccount s (s.lineIdleRun p) :=
  (keepsAccount_handIdleRun _ p).after (.ofPort fun _ => rfl)

theorem keepsAccount_lineCharacter (s : State) (p : Port) (idle : Bool) : KeepsAccount s (s.lineCharacter p idle) := by
  unfold State.lineCharacter
  exact .ite (.refl s) (.ite (keepsAccount_lineIdleRun s p) (.ofPort fun _ => rfl))

theorem keepsAccount_lineUnrecognised (s : State) (p : Port) : KeepsAccount s (s.lineUnrecognised p) := by
  unfold State.lineUnrecognised
  exact .ite (.refl s) ((keepsAccount_clearTally _ p).after (.ofPort fun _ => rfl))

theorem keepsAccount_lineLoss (s : State) (p : Port) : KeepsAccount s (s.lineLoss p) :=
  (keepsAccount_clearTally _ p).after ((keepsAccount_judge _ _ _).after (.ofPort fun _ => rfl))

theorem keepsAccount_badFrame (s : State) (p : Port) : KeepsAccount s (s.badFrame p) :=
  ((keepsAccount_pushControl s p _).trans (keepsAccount_modPortCount _ p _)).trans (keepsAccount_raiseScore _ p _)

theorem keepsAccount_breakReception (s : State) (p : Port) : KeepsAccount s (s.breakReception p) := by
  unfold State.breakReception
  exact .ite ((keepsAccount_setReception s p _).trans (keepsAccount_badFrame _ p)) (keepsAccount_setReception s p _)

theorem keepsAccount_receiveCharacter (s : State) (p : Port) (c : Character) : KeepsAccount s (s.receiveCharacter p c) := by
  cases c with
  | start => exact (keepsAccount_breakReception s p).trans (keepsAccount_setReception _ p _)
  | data b =>
    unfold State.receiveCharacter
    dsimp only
    split
    · exact keepsAccount_setReception s p _
    · exact .refl s
    · exact .refl s
  | endChar => exact .refl s
  | idleMark => exact keepsAccount_breakReception s p
  | control => exact keepsAccount_breakReception s p

/-! ### Admission (R96 to R98) -/

theorem keepsAccount_nakBusy (s : State) (p : Port) : KeepsAccount s (s.nakBusy p) :=
  (keepsAccount_pushControl s p _).trans (keepsAccount_modPortCount _ p _)

theorem keepsAccount_nakFull (s : State) (p : Port) : KeepsAccount s (s.nakFull p) :=
  (keepsAccount_pushControl s p _).trans (keepsAccount_modPortCount _ p _)

/-- R97: the hold of an admitted frame is handed to the input queue or to the frames awaiting decision. -/
theorem accounted_queueAdmitted {s : State} {b : BufIx} {out : List (Option BufIx)} (h : Accounted s (some b :: out)) (p : Port)
    (m : Bool) : Accounted (s.queueAdmitted p b m) out := by
  unfold State.queueAdmitted
  split
  · exact accounted_mgmtQueue (gave := [some b]) (gone := []) (by simp [mgmtHeld]) h
  · refine accounted_modPort (gave := [some b]) (gone := []) ?_ h
    rw [List.perm_iff_count]
    intro o
    simp only [PortSt.held, List.map_append, List.count_append, List.map_cons, List.map_nil, List.count_nil]
    show _ + _ + List.count o (namedBuffers (s.port p).allEntries) + 0 = _
    omega

theorem holds_firstFree {s : State} {b : BufIx} (free : s.firstFree = some b) : (s.buffer b).holds = 0 := by
  simpa using List.find?_some free

/-- R97: the buffer an admitted frame takes is free, so that its one hold is the frame's. -/
theorem keepsAccount_admitFrame {s : State} {b : BufIx} (free : s.firstFree = some b) (p : Port) (image payload : List Byte)
    (m : Bool) : KeepsAccount s (s.admitFrame p b image payload m) := by
  intro out h
  have taken : Accounted (s.modBuffer b (fun _ => ⟨1, .port p, image, payload, s.timeBase⟩)) (some b :: out) := by
    intro c
    have before := h c
    rw [show (s.modBuffer b _).held = s.held from rfl, State.buffer_modBuffer, List.count_cons]
    by_cases same : b = c
    · subst same
      rw [holds_firstFree free] at before
      simp
      omega
    · simpa [same] using before
  refine keepsAccount_judgeHold _ p _ (accounted_queueAdmitted ?_ p m)
  refine keepsAccount_lowerScore _ p _ (keepsAccount_modPortCount _ p _ _ (keepsAccount_pushControl _ p _ _ ?_))
  exact keepsAccount_judge _ _ _ _ taken

theorem keepsAccount_admission (s : State) (p : Port) (image payload : List Byte) :
    KeepsAccount s (s.admission p image payload) := by
  unfold State.admission
  refine .ite (keepsAccount_nakBusy s p) (.ite (keepsAccount_nakBusy s p) (.ite (keepsAccount_nakBusy s p)
    (.ite ((keepsAccount_nakFull s p).trans (keepsAccount_raise _ _)) (.ite (keepsAccount_nakFull s p) ?_))))
  split
  · exact .refl s
  · next free => exact keepsAccount_admitFrame free p _ _ _

/-! ### What arrives (R111, R112, R115, R116) -/

/-- The line monitor's part in an arrival that ends the FRAME in reception. -/
theorem keepsAccount_lineCharacter_ended (s : State) (p : Port) :
    KeepsAccount s ((s.lineCharacter p false).setReception p .none) :=
  (keepsAccount_lineCharacter s p false).trans (keepsAccount_setReception _ p _)

theorem keepsAccount_arriveFrame (s : State) (p : Port) (chars : List Byte) : KeepsAccount s (s.arriveFrame p chars) := by
  have ended := keepsAccount_lineCharacter_ended s p
  unfold State.arriveFrame
  refine .ite (ended.trans ?_) ended
  unfold State.frameEnd
  exact .ite (keepsAccount_admission _ p _ _) (keepsAccount_badFrame _ p)

theorem keepsAccount_arriveCharacter (s : State) (p : Port) (c : Character) : KeepsAccount s (s.arriveCharacter p c) := by
  unfold State.arriveCharacter
  exact .ite (.refl s) (.ite (keepsAccount_arriveFrame s p [])
    ((keepsAccount_receiveCharacter s p c).trans (keepsAccount_lineCharacter _ p _)))

theorem keepsAccount_arriveUnrecognised (s : State) (p : Port) : KeepsAccount s (s.arriveUnrecognised p) := by
  unfold State.arriveUnrecognised
  exact .ite (.refl s) ((keepsAccount_breakReception s p).trans (keepsAccount_lineUnrecognised _ p))

theorem keepsAccount_arriveLoss (s : State) (p : Port) : KeepsAccount s (s.arriveLoss p) := by
  unfold State.arriveLoss
  refine .ite (.refl s) ?_
  split
  · exact .refl s
  · exact ((keepsAccount_elapse s _).trans (keepsAccount_breakReception _ p)).trans (keepsAccount_lineLoss _ p)

theorem keepsAccount_arriveIdleRun (s : State) (p : Port) : KeepsAccount s (s.arriveIdleRun p) := by
  unfold State.arriveIdleRun
  exact .ite (.refl s) ((keepsAccount_breakReception s p).trans (keepsAccount_lineIdleRun _ p))

theorem keepsAccount_arriveBroken (s : State) (p : Port) (i : Interruption) : KeepsAccount s (s.arriveBroken p i) := by
  have ended := keepsAccount_lineCharacter_ended s p
  let u := (s.lineCharacter p false).setReception p .none
  have broken : KeepsAccount s (if u.receives p && ((s.lineCharacter p false).port p).reception != .passingOver
      then u.badFrame p else u) := .ite (ended.trans (keepsAccount_badFrame u p)) ended
  refine broken.trans ?_
  cases i with
  | character c => exact keepsAccount_arriveCharacter _ p c
  | unrecognised => exact keepsAccount_arriveUnrecognised _ p
  | lossOfSignal => exact keepsAccount_arriveLoss _ p

/-! ### The transmitter and the scheduler (R79 to R83) -/

theorem keepsAccount_attemptStart (s : State) (p : Port) : KeepsAccount s (s.attemptStart p) := by
  have started (k : QueueId) : KeepsAccount s (s.startAttempt p k) := by
    unfold State.startAttempt
    split
    · exact .refl s
    · next front =>
      refine KeepsAccount.after (.ofPort fun _ => rfl) fun out h => ?_
      exact accounted_taken (gone := []) (by rw [front]; simp) h
  unfold State.attemptStart
  split
  · split
    · exact .refl s
    · exact started _
  · exact .refl s

theorem keepsAccount_setSending (s : State) (p : Port) (y : Symbol) : KeepsAccount s (s.setSending p y) := .ofPort fun _ => rfl

theorem keepsAccount_frameSent (s : State) (p : Port) : KeepsAccount s (s.frameSent p) := by
  unfold State.frameSent
  split
  · exact .refl s
  · split
    · exact .refl s
    · split
      · exact .refl s
      · exact .ofPort fun _ => rfl
      · exact KeepsAccount.after (.ofPort fun _ => rfl) ((keepsAccount_setSending _ p _).after (.ofPort fun _ => rfl))

theorem keepsAccount_symbolAfter (s : State) (p : Port) : KeepsAccount s (s.symbolAfter p) := by
  have chosen : KeepsAccount s (s.nextSymbol p) := by
    unfold State.nextSymbol
    split
    · exact (keepsAccount_setSending _ p _).after (.ofPort fun _ => rfl)
    · split
      · exact keepsAccount_setSending s p _
      · exact .ite (KeepsAccount.after (.ofPort fun _ => rfl) (keepsAccount_setSending s p _)) (keepsAccount_setSending s p _)
  unfold State.symbolAfter
  split
  · exact keepsAccount_setSending s p _
  · exact keepsAccount_setSending s p _
  · exact keepsAccount_setSending s p _
  · exact chosen
  · exact chosen

theorem keepsAccount_symbolEnd (s : State) (p : Port) : KeepsAccount s (s.symbolEnd p) := by
  unfold State.symbolEnd
  exact .ite (.ite (.refl s) ((keepsAccount_frameSent s p).trans (keepsAccount_symbolAfter _ p))) (keepsAccount_symbolAfter s p)

theorem keepsAccount_endAttempt (s : State) (p : Port) : KeepsAccount s (s.endAttempt p) := .ofPort fun _ => rfl

theorem keepsAccount_startInterval (s : State) (p : Port) (k : QueueId) : KeepsAccount s (s.startInterval p k) := by
  cases k with
  | data q => exact .ofPort fun _ => rfl
  | g => exact .refl s
  | m => exact .refl s

theorem keepsAccount_claimFor (s : State) (e : QueueEntry) (c : Tag → Claim) : KeepsAccount s (s.claimFor e c) := by
  unfold State.claimFor
  split
  · exact .refl s
  · exact keepsAccount_addClaim s _

/-- R80, R82: the head of a queue leaves it and gives up its hold. -/
theorem keepsAccount_headLeft {s : State} {p : Port} {k : QueueId} {e : QueueEntry} {es : List QueueEntry}
    (front : s.queue p k = e :: es) : KeepsAccount s ((s.setQueue p k es).entryLeft e) := fun out h =>
  accounted_entryLeft (accounted_taken (gone := [e.buffer]) (by rw [front]; exact List.perm_append_singleton _ _) h)

theorem queue_endAttempt (s : State) (p : Port) (k : QueueId) : (s.endAttempt p).queue p k = s.queue p k := by
  rw [State.queue, State.endAttempt, State.port_modPort_self]
  cases k <;> rfl

theorem queue_modPortCount (s : State) (p : Port) (f : PortCounters → PortCounters) (k : QueueId) :
    (s.modPortCount p f).queue p k = s.queue p k := by
  rw [State.queue, State.modPortCount, State.port_modPort_self]
  cases k <;> rfl

theorem keepsAccount_completeAck (s : State) (p : Port) : KeepsAccount s (s.completeAck p) := by
  unfold State.completeAck
  split
  · exact .refl s
  · split
    · exact keepsAccount_endAttempt s p
    · next front =>
      have left := (keepsAccount_endAttempt s p).trans (keepsAccount_headLeft ((queue_endAttempt s p _).trans front))
      exact (((left.trans (keepsAccount_modPortCount _ p _)).trans (keepsAccount_claimFor _ _ _)).trans
        (keepsAccount_startInterval _ p _)).trans (keepsAccount_lowerScore _ p)

theorem keepsAccount_completeFailure (s : State) (p : Port) : KeepsAccount s (s.completeFailure p) := by
  unfold State.completeFailure
  split
  · exact .refl s
  · split
    · exact keepsAccount_endAttempt s p
    · next a _ _ e es front =>
      let t := (s.endAttempt p).modPortCount p (fun c => { c with txFail := c.txFail + 1 })
      have failed : KeepsAccount s t := (keepsAccount_endAttempt s p).trans (keepsAccount_modPortCount _ p _)
      have front' : t.queue p a.queue = e :: es :=
        (queue_modPortCount _ p _ _).trans ((queue_endAttempt s p _).trans front)
      refine failed.trans (.ite ?_ fun out h => ?_)
      · exact ((keepsAccount_headLeft front').trans (keepsAccount_modPortCount _ p _)).trans (keepsAccount_claimFor _ _ _)
      · exact accounted_taken (gone := []) (by rw [front']; simp) h

theorem keepsAccount_failAttempt (s : State) (p : Port) (raises : Bool) : KeepsAccount s (s.failAttempt p raises) := by
  unfold State.failAttempt
  exact .ite ((keepsAccount_completeFailure s p).trans (keepsAccount_raiseScore _ p _)) (keepsAccount_completeFailure s p)

theorem keepsAccount_ackReceived (s : State) (p : Port) : KeepsAccount s (s.ackReceived p) :=
  (keepsAccount_arriveCharacter s p _).trans (.ite (keepsAccount_completeAck _ p) (.refl _))

theorem keepsAccount_nakReceived (s : State) (p : Port) (r : NakReason) : KeepsAccount s (s.nakReceived p r) :=
  (keepsAccount_arriveCharacter s p _).trans (.ite (keepsAccount_failAttempt _ p _) (.refl _))

theorem keepsAccount_strayAnswer (s : State) (p : Port) : KeepsAccount s (s.strayAnswer p) :=
  .ite (.refl s) (keepsAccount_arriveCharacter s p _)

theorem keepsAccount_ackWindowExpiry (s : State) (p : Port) : KeepsAccount s (s.ackWindowExpiry p) := by
  unfold State.ackWindowExpiry
  split
  · exact .refl s
  · split
    · exact (keepsAccount_elapse s _).trans (keepsAccount_failAttempt _ p _)
    · exact .refl s
    · exact .refl s

theorem keepsAccount_holdReceived (s : State) (p : Port) (d : Byte) : KeepsAccount s (s.holdReceived p d) :=
  (keepsAccount_arriveCharacter s p _).trans (.ite (.ofPort fun _ => rfl) (.refl _))

theorem keepsAccount_partnerHoldExpiry (s : State) (p : Port) : KeepsAccount s (s.partnerHoldExpiry p) := by
  unfold State.partnerHoldExpiry
  split
  · exact .refl s
  · exact KeepsAccount.after (.ofPort fun _ => rfl) (keepsAccount_elapse s _)

theorem keepsAccount_intervalExpiry (s : State) (p : Port) (q : DataQ) : KeepsAccount s (s.intervalExpiry p q) := by
  unfold State.intervalExpiry
  split
  · exact .refl s
  · exact KeepsAccount.after (.ofPort fun _ => rfl) (keepsAccount_elapse s _)

theorem keepsAccount_holdResendExpiry (s : State) (p : Port) : KeepsAccount s (s.holdResendExpiry p) := by
  unfold State.holdResendExpiry
  split
  · exact .refl s
  · exact KeepsAccount.after (.ofPort fun _ => rfl) ((keepsAccount_elapse s _).trans (keepsAccount_pushControl _ p _))

/-! ### Decisions (R7, R18, R40, R43, R54) -/

theorem keepsAccount_refuse (s : State) (p : Port) (h : Header) (st : Status) (d : Half) :
    KeepsAccount s (s.refuse p h st d) := by
  have told : KeepsAccount s (s.refusalTold p h st d) := 
    KeepsAccount.after (.ofFlags (onlyFlags_refusalTold s p st d)) (.ofPorts rfl rfl rfl)
  exact .ite (told.trans (keepsAccount_offerReply _ p _)) told

theorem keepsAccount_forwardRequest (s : State) (p : Port) (b : BufIx) (h : Header) (r : RuleIx) (f : Forwarding) :
    KeepsAccount s (s.forwardRequest p b h r f).1 := by
  unfold State.forwardRequest
  split
  · exact .refl s
  · have opened := keepsAccount_openRecord s
    dsimp only
    split
    · next delivered =>
      exact ((opened _ _).trans (keepsAccount_deliver delivered)).trans (keepsAccount_modCount _ _)
    · exact (opened _ _).trans (keepsAccount_freed_answered _ _ _ _)

theorem keepsAccount_forwardNotice (s : State) (b : BufIx) (h : Header) (r : RuleIx) (f : Forwarding) :
    KeepsAccount s (s.forwardNotice b h r f).1 := by
  unfold State.forwardNotice
  split
  · next delivered => exact (keepsAccount_deliver delivered).trans (keepsAccount_modCount _ _)
  · exact keepsAccount_modCount s _

theorem keepsAccount_deliverReply (s : State) (b : BufIx) (h : Header) (r : RuleIx) (c : CallRecord) (len : Nat) :
    KeepsAccount s (s.deliverReply b h r c len).1 := by
  unfold State.deliverReply
  split
  · next delivered => exact (keepsAccount_deliver delivered).trans (keepsAccount_modCount _ _)
  · exact (keepsAccount_raise s _).trans (keepsAccount_modCount _ _)

theorem keepsAccount_discardedWith (s : State) (e : EventFlag) : KeepsAccount s (s.discardedWith e) :=
  (keepsAccount_raise s _).trans (keepsAccount_modCount _ _)

theorem keepsAccount_matchReply (s : State) (p : Port) (b : BufIx) (h : Header) (r : RuleIx) (len : Nat) :
    KeepsAccount s (s.matchReply p b h r len).1 := by
  unfold State.matchReply
  split
  · exact keepsAccount_discardedWith s _
  · split
    · exact (keepsAccount_withdrawn_freed s _).trans (keepsAccount_deliverReply _ b h r _ len)
    · exact keepsAccount_discardedWith s _

theorem keepsAccount_mirrorCopy (s : State) (p : Port) (b : BufIx) (r : RuleIx) (o : Byte) :
    KeepsAccount s (s.mirrorCopy p b r o) := by
  unfold State.mirrorCopy
  refine .ite (.trans ?_ (keepsAccount_modCount _ _)) (.refl s)
  split
  · next copied =>
    unfold State.mirrorDelivery at copied
    split at copied
    · contradiction
    · split at copied
      · contradiction
      · exact keepsAccount_deliver copied
  · exact keepsAccount_raise s _

theorem keepsAccount_primary (s : State) (p : Port) (b : BufIx) (h : Header) (x : Settled) :
    KeepsAccount s (s.primary p b h x).1 := by
  cases x with
  | unscanned => exact keepsAccount_modCount s _
  | noRule => exact keepsAccount_discardedWith s _
  | discard r => exact keepsAccount_modCount s _
  | shortReply r => exact keepsAccount_discardedWith s _
  | refusal r st d g => exact keepsAccount_refuse s p h st d
  | matching r len => exact keepsAccount_matchReply s p b h r len
  | forward r f =>
    by_cases request : h.kind.isRequest = true
    · rw [State.primary, if_pos request]
      exact keepsAccount_forwardRequest s p b h r f
    · rw [State.primary, if_neg request]
      exact keepsAccount_forwardNotice s b h r f

theorem keepsAccount_applySettled (s : State) (p : Port) (b : BufIx) (h : Header) (x : Settled) :
    KeepsAccount s (s.applySettled p b h x) := by
  cases rule : x.matchedRule with
  | none =>
    cases x with
    | unscanned => exact keepsAccount_primary s p b h .unscanned
    | noRule => exact keepsAccount_primary s p b h .noRule
    | _ => contradiction
  | some r =>
    rw [applySettled_matched rule]
    exact (keepsAccount_primary s p b h x).trans (keepsAccount_mirrorCopy _ p b r _)

/-- R7: the frame decided leaves the frames awaiting decision, and its own hold is released at the end. -/
theorem keepsAccount_decisionStep (s : State) (p : Port) : KeepsAccount s (s.decisionStep p) := by
  unfold State.decisionStep
  split
  · exact .refl s
  · next b bs front =>
    intro out h
    refine accounted_release (keepsAccount_applySettled _ p b _ _ _ ?_)
    refine accounted_modPort (gave := []) (gone := [some b]) ?_ h
    rw [List.append_nil, PortSt.held, PortSt.held, front]
    exact List.perm_append_singleton _ _

/-! ### Notices (R100, R167) -/

/-- R100: a notice's entry is the one holder of the free buffer it is built into. -/
theorem keepsAccount_noticeAttempt (s : State) : KeepsAccount s s.noticeAttempt := by
  unfold State.noticeAttempt
  split
  · split
    · exact .refl s
    · next b _ =>
      split
      · exact .refl s
      · next u delivered =>
        unfold State.noticeDelivery at delivered
        have built : KeepsAccount s (s.modBuffer b (fun x => { x with origin := .gateway, payload := s.noticePayload })) :=
          .ofHeld (fun c => by rw [State.buffer_modBuffer]; split <;> simp_all) rfl
        have disarmed : KeepsAccount u u.disarm := .ofPorts rfl rfl rfl
        exact ((built.trans (keepsAccount_deliver delivered)).trans disarmed).trans (keepsAccount_judge _ _ _)
  · exact .refl s

theorem keepsAccount_noticeStep (s : State) (f : Flag) : KeepsAccount s (s.noticeStep f) := by
  have dropped : KeepsAccount s (s.dropTrigger f) := .ofPorts rfl rfl rfl
  unfold State.noticeStep
  exact .ite (.ite (dropped.trans (keepsAccount_noticeAttempt _)) dropped) (.refl s)

theorem keepsAccount_settleTriggers (s : State) : KeepsAccount s s.settleTriggers :=
  (KeepsAccount.foldl keepsAccount_noticeStep s.wires.triggers s).trans (.ofPorts rfl rfl rfl)

/-! ### The management unit (R145 to R149) -/

theorem keepsAccount_takeDemand (s : State) (d : Demand) : KeepsAccount s (s.takeDemand d) := by
  cases d with
  | delivered p | undeliverable p | targetPortDown p | portDown p => exact keepsAccount_takeOldest s _
  | withdraw p tag => exact keepsAccount_withdrawStep s p tag
  | notice f => exact keepsAccount_noticeStep s f

theorem keepsAccount_sendOwed (s : State) (r : Option CallRecord) : KeepsAccount s (s.sendOwed r) := by
  cases r with
  | none => exact .refl s
  | some r => exact keepsAccount_sendCallReply s _ _

theorem keepsAccount_interleave (s : State) (o : Interleaving) (owed : Option CallRecord) :
    KeepsAccount s (s.interleave o owed) := by
  unfold State.interleave
  exact .ite (.foldl keepsAccount_takeDemand _ s) ((keepsAccount_sendOwed s owed).trans (.foldl keepsAccount_takeDemand _ _))

theorem keepsAccount_writeReply (s : State) (b : BufIx) (l : List Byte) : KeepsAccount s (s.writeReply b l) := by
  unfold State.writeReply
  exact .ite (.refl s) (.ofHeld (fun c => by rw [State.buffer_modBuffer]; split <;> simp_all) rfl)

theorem keepsAccount_offerManagement (s : State) (q : Request) (e : QueueEntry) : KeepsAccount s (s.offerManagement q e) := by
  unfold State.offerManagement
  split
  · next delivered => exact keepsAccount_deliver delivered
  · exact .ite ((keepsAccount_raise s _).trans (keepsAccount_reportRestart _)) (keepsAccount_raise s _)

/-- R148: the request's own hold is released behind its reply. -/
theorem accounted_answer {x : Executed} {q : Request} {out : List (Option BufIx)} (h : Accounted x.state (some q.buffer :: out))
    (gsn : Station) (o : Interleaving) (r : Bool) : Accounted (State.answer gsn o q x r) out := by
  have replied := ((keepsAccount_interleave x.state o x.owed).trans (keepsAccount_writeReply _ q.buffer x.payload)).trans
    (keepsAccount_offerManagement _ q (managementEntry gsn q x.status x.payload r))
  exact accounted_release (KeepsAccount.ite (replied.trans (keepsAccount_sendOwed _ x.owed)) replied _ h)

theorem keepsAccount_opSetPortState (s : State) (q : Request) : KeepsAccount s (opSetPortState s q).state := by
  unfold opSetPortState
  split
  · exact .refl s
  · split
    · exact .refl s
    · split
      · exact .refl s
      · split
        · exact .refl s
        · split
          · exact keepsAccount_transition s _ _
          · exact .refl s

theorem keepsAccount_opCancelCall (s : State) (q : Request) : KeepsAccount s (opCancelCall s q).state := by
  unfold opCancelCall
  split
  · exact .refl s
  · split
    · exact .refl s
    · split
      · exact keepsAccount_withdrawn_freed s _
      · exact .refl s

theorem keepsAccount_opAbortQueue (s : State) (q : Request) : KeepsAccount s (opAbortQueue s q).state := by
  unfold opAbortQueue
  split
  · exact .refl s
  · split
    · exact .refl s
    · exact keepsAccount_abortQueue s _ _

theorem keepsAccount_opReadCounters (s : State) (q : Request) : KeepsAccount s (opReadCounters s q).state := by
  unfold opReadCounters
  split
  · exact .refl s
  · split
    · exact .refl s
    · split
      · exact .ite (keepsAccount_modPortCount s _ _) (.refl s)
      · exact .ite (keepsAccount_modCount s _) (.refl s)

theorem keepsAccount_setTables (s : State) (f : Tables → Tables) : KeepsAccount s (s.setTables f) := .ofPorts rfl rfl rfl

theorem keepsAccount_writeSettings (s : State) (r : Settings) : KeepsAccount s (writeSettings s r) := by
  have marks : KeepsAccount s (judgeMarks s r) :=
    ((keepsAccount_setTables s _).trans (keepsAccount_judge _ _ _)).trans (keepsAccount_judge _ _ _)
  have triggers : KeepsAccount s (takeNewTriggers s (judgeMarks s r)) := marks.trans (.foldl keepsAccount_noticeStep _ _)
  unfold writeSettings leaveMonitor
  split
  · exact triggers
  · exact .ite triggers (triggers.trans (keepsAccount_abortQueue _ _ _))

theorem keepsAccount_opWriteGateway (s : State) (q : Request) : KeepsAccount s (opWriteGateway s q).state := by
  unfold opWriteGateway
  split
  · exact .refl s
  · split
    · exact .refl s
    · split
      · exact .refl s
      · exact keepsAccount_writeSettings s _

theorem keepsAccount_opWriteRule (s : State) (q : Request) : KeepsAccount s (opWriteRule s q).state := by
  unfold opWriteRule
  split
  · exact .refl s
  · exact keepsAccount_setTables s _

theorem keepsAccount_opWriteService (s : State) (q : Request) : KeepsAccount s (opWriteService s q).state := by
  unfold opWriteService
  split
  · exact .refl s
  · split
    · exact .refl s
    · split
      · exact .refl s
      · split
        · exact .refl s
        · exact keepsAccount_setTables s _

theorem keepsAccount_opWritePort (s : State) (q : Request) : KeepsAccount s (opWritePort s q).state := by
  unfold opWritePort
  split
  · exact .refl s
  · split
    · exact .refl s
    · split
      · exact .refl s
      · split
        · exact .refl s
        · split
          · exact .refl s
          · exact keepsAccount_setTables s _

theorem keepsAccount_opWriteQueue (s : State) (q : Request) : KeepsAccount s (opWriteQueue s q).state := by
  unfold opWriteQueue
  split
  · split
    · exact .refl s
    · exact keepsAccount_setTables s _
  · exact .refl s

theorem keepsAccount_opClearTable (s : State) (q : Request) : KeepsAccount s (opClearTable s q).state := by
  unfold opClearTable
  dsimp only
  split
  · split
    · exact .refl s
    · exact keepsAccount_setTables s _
  · split
    · exact .refl s
    · exact keepsAccount_setTables s _
  all_goals exact .refl s

theorem keepsAccount_execute (op : Operation) (s : State) (q : Request) : KeepsAccount s (execute op s q).state := by
  cases op with
  | identify | readState => exact .refl s
  | restart => exact .ofPorts rfl rfl rfl
  | readTable => exact (state_opReadTable s q).symm ▸ .refl s
  | readCall => exact (state_opReadCall s q).symm ▸ .refl s
  | probe => exact (state_opProbe s q).symm ▸ .refl s
  | writeRule => exact keepsAccount_opWriteRule s q
  | writeService => exact keepsAccount_opWriteService s q
  | writePort => exact keepsAccount_opWritePort s q
  | writeQueue => exact keepsAccount_opWriteQueue s q
  | writeGateway => exact keepsAccount_opWriteGateway s q
  | clearTable => exact keepsAccount_opClearTable s q
  | setPortState => exact keepsAccount_opSetPortState s q
  | abortQueue => exact keepsAccount_opAbortQueue s q
  | cancelCall => exact keepsAccount_opCancelCall s q
  | readEvents => exact (keepsAccount_settleTriggers s).trans (.ofPorts rfl rfl rfl)
  | readCounters => exact keepsAccount_opReadCounters s q

/-- The entry a judgement of the head is about. -/
def HeadJudgement.entry : HeadJudgement → Option MgmtEntry
  | .waits => none
  | .discardKind e | .discardAdmit e | .ringRefused e | .refused e _ | .run e _ => some e

theorem entry_judgeEntry {s : State} {e e' : MgmtEntry} (judged : (s.judgeEntry e).entry = some e') : e = e' := by
  unfold State.judgeEntry at judged
  split at judged
  · exact Option.some.inj judged
  · split at judged
    · exact Option.some.inj judged
    · split at judged
      · contradiction
      · split at judged
        · exact Option.some.inj judged
        · split at judged <;> exact Option.some.inj judged

/-- The entry judged is the head of the input queue. -/
theorem mgmtQueue_of_judgeHead {s : State} {e : MgmtEntry} (judged : s.judgeHead.entry = some e) :
    s.mgmt.queue = e :: s.mgmt.queue.tail := by
  unfold State.judgeHead at judged
  split at judged
  · split at judged
    · contradiction
    · next front =>
      rw [front, entry_judgeEntry judged]
      rfl
  · contradiction

/-- The head taken leaves the input queue with its hold on the way. -/
theorem accounted_dropHead {s : State} {e : MgmtEntry} {out : List (Option BufIx)} (judged : s.judgeHead.entry = some e)
    (h : Accounted s out) : Accounted s.dropHead (some e.buffer :: out) := by
  refine accounted_mgmtQueue (gave := []) (gone := [some e.buffer]) ?_ h
  rw [mgmtQueue_of_judgeHead judged, List.append_nil]
  exact List.perm_append_singleton _ _

theorem keepsAccount_manage (s : State) (o : Interleaving) : KeepsAccount s (s.manage o) := by
  intro out h
  have dropped {e : MgmtEntry} (x : HeadJudgement) (judged : s.judgeHead = x) (about : x.entry = some e) :
      Accounted s.dropHead (some e.buffer :: out) := accounted_dropHead (by rw [judged, about]) h
  unfold State.manage
  split
  · exact h
  · next judged => exact accounted_release (keepsAccount_modCount _ _ _ (dropped _ judged rfl))
  · next judged => exact accounted_release (keepsAccount_raise _ _ _ (dropped _ judged rfl))
  · next judged => exact accounted_answer (q := s.request _) (keepsAccount_raise _ _ _ (dropped _ judged rfl)) _ o _
  · next judged => exact accounted_answer (q := s.request _) (x := refusedWith s.dropHead _) (dropped _ judged rfl) _ o _
  · next judged => exact accounted_answer (q := s.request _) (keepsAccount_execute _ _ _ _ (dropped _ judged rfl)) _ o _

theorem keepsAccount_takeOf (op : Operation) (o : Interleaving) (s : State) : KeepsAccount s (State.takeOf op o s) := by
  unfold State.takeOf
  split
  · exact .ite (keepsAccount_manage s o) (.refl s)
  all_goals exact .refl s

/-! ### Resets and the statement about every step -/

/-- R92: at reset every buffer is free and nothing holds one. -/
theorem holdsAreHolders_atReset (gsn : Station) (bringup : Port) (reception : Port → Reception) (pending : List Instr) :
    HoldsAreHolders (State.atReset gsn bringup reception pending) := by
  intro b
  have port (p : Port) : (State.atReset gsn bringup reception pending).port p = PortSt.reset (bringup == p) (reception p) := by
    fin_cases p <;> rfl
  have buffer : (State.atReset gsn bringup reception pending).buffer b = Buffer.reset := look_replicate _ b
  have empty (p : Port) : (PortSt.reset (bringup == p) (reception p)).holders b = 0 := by
    simp [PortSt.holders, PortSt.reset, PortSt.allEntries]
  rw [buffer, State.holders]
  simp only [port, empty]
  rfl

theorem holdsAreHolders_restartAct {s : State} (h : HoldsAreHolders s) : HoldsAreHolders s.restartAct := by
  unfold State.restartAct
  split
  · exact holdsAreHolders_atReset _ _ _ _
  · exact h
  · exact h

/-- R173: what the asserted reset pin loses are frames on the lines, not the entries that hold their buffers. -/
theorem keepsAccount_assertReset (s : State) : KeepsAccount s s.assertReset := by
  have unsent (es : List QueueEntry) : namedBuffers (es.map entryUnsent) = namedBuffers es :=
    namedBuffers_map entryUnsent (fun _ => rfl) es
  have held (x : PortSt) : (portAsserted x).held = x.held := by
    simp [PortSt.held, PortSt.allEntries, portAsserted, unsent]
  refine .ofHeld (fun _ => rfl) (held_of_ports (fun p => ?_) rfl)
  rw [show s.assertReset.port p = portAsserted (s.port p) from look_map _ _ _]
  exact held _

section
variable {s t : State} (h : HoldsAreHolders s)
include h

/-- R173: a command that is taken only while the reset pin is released. -/
theorem holdsAreHolders_running {f : State → State} (k : HoldsAreHolders (f s)) (ran : running f s = .next t) :
    HoldsAreHolders t := by
  unfold running at ran
  split at ran
  · exact Host.Outcome.next.inj ran ▸ h
  · exact Host.Outcome.next.inj ran ▸ k

theorem holdsAreHolders_ofKeeps {f : State → State} (k : ∀ s, KeepsAccount s (f s)) (ran : running f s = .next t) :
    HoldsAreHolders t := holdsAreHolders_running h ((k s).holdsAreHolders h) ran

/-- Every command keeps the hold counts right: the two resets leave nothing held, and every other keeps the account. -/
theorem holdsAreHolders_exec {c : Instr} (ran : exec c s = .next t) : HoldsAreHolders t := by
  have taken (op : Operation) (o : Interleaving) (ran : running (State.takeOf op o) s = .next t) : HoldsAreHolders t :=
    holdsAreHolders_ofKeeps h (keepsAccount_takeOf op o) ran
  cases c with
  | resetAssert => exact Host.Outcome.next.inj ran ▸ (keepsAccount_assertReset s).holdsAreHolders h
  | resetRelease bringup stn => exact Host.Outcome.next.inj ran ▸ holdsAreHolders_atReset _ _ _ _
  | restartAct => exact holdsAreHolders_running h (holdsAreHolders_restartAct h) ran
  | frameReceived p chars => exact holdsAreHolders_ofKeeps h (keepsAccount_arriveFrame · p chars) ran
  | brokenFrame p i => exact holdsAreHolders_ofKeeps h (fun s => .ite (keepsAccount_arriveBroken s p i) (.refl s)) ran
  | ackReceived p => exact holdsAreHolders_ofKeeps h (keepsAccount_ackReceived · p) ran
  | nakReceived p r => exact holdsAreHolders_ofKeeps h (keepsAccount_nakReceived · p r) ran
  | ackWindowExpiry p => exact holdsAreHolders_ofKeeps h (keepsAccount_ackWindowExpiry · p) ran
  | strayAnswer p a => exact holdsAreHolders_ofKeeps h (keepsAccount_strayAnswer · p) ran
  | holdReceived p d => exact holdsAreHolders_ofKeeps h (keepsAccount_holdReceived · p d) ran
  | partnerHoldExpiry p => exact holdsAreHolders_ofKeeps h (keepsAccount_partnerHoldExpiry · p) ran
  | idleRun p => exact holdsAreHolders_ofKeeps h (keepsAccount_arriveIdleRun · p) ran
  | lossOfSignal p => exact holdsAreHolders_ofKeeps h (keepsAccount_arriveLoss · p) ran
  | unrecognisedCharacter p => exact holdsAreHolders_ofKeeps h (keepsAccount_arriveUnrecognised · p) ran
  | characterRecognised p c => exact holdsAreHolders_ofKeeps h (keepsAccount_arriveCharacter · p c) ran
  | transmitterSymbolEnd p => exact holdsAreHolders_ofKeeps h (keepsAccount_symbolEnd · p) ran
  | frameSent p => exact holdsAreHolders_ofKeeps h (keepsAccount_frameSent · p) ran
  | attemptStart p => exact holdsAreHolders_ofKeeps h (keepsAccount_attemptStart · p) ran
  | intervalTimerExpiry p q => exact holdsAreHolders_ofKeeps h (keepsAccount_intervalExpiry · p q) ran
  | holdResendExpiry p => exact holdsAreHolders_ofKeeps h (keepsAccount_holdResendExpiry · p) ran
  | decision p => exact holdsAreHolders_ofKeeps h (keepsAccount_decisionStep · p) ran
  | deliveredClaim p => exact holdsAreHolders_ofKeeps h (keepsAccount_takeOldest · _) ran
  | undeliverableClaim p => exact holdsAreHolders_ofKeeps h (keepsAccount_takeOldest · _) ran
  | targetPortDownClaim p => exact holdsAreHolders_ofKeeps h (keepsAccount_takeOldest · _) ran
  | portDownClaim p => exact holdsAreHolders_ofKeeps h (keepsAccount_takeOldest · _) ran
  | callExpiry i => exact holdsAreHolders_ofKeeps h (keepsAccount_callExpiry · i) ran
  | withdraw p tag => exact holdsAreHolders_ofKeeps h (keepsAccount_withdrawStep · p tag) ran
  | noticeAttempt f => exact holdsAreHolders_ofKeeps h (keepsAccount_noticeStep · f) ran
  | managementTake o => exact holdsAreHolders_ofKeeps h (keepsAccount_manage · o) ran
  | identify o => exact taken .identify o ran
  | readTable o => exact taken .readTable o ran
  | writeTableRule o => exact taken .writeRule o ran
  | writeTableService o => exact taken .writeService o ran
  | writeTablePort o => exact taken .writePort o ran
  | writeTableQueue o => exact taken .writeQueue o ran
  | writeTableGateway o => exact taken .writeGateway o ran
  | clearTable o => exact taken .clearTable o ran
  | readState o => exact taken .readState o ran
  | setPortState o => exact taken .setPortState o ran
  | abortQueue o => exact taken .abortQueue o ran
  | cancelCall o => exact taken .cancelCall o ran
  | readCall o => exact taken .readCall o ran
  | readEvents o => exact taken .readEvents o ran
  | readCounters o => exact taken .readCounters o ran
  | probe o => exact taken .probe o ran
  | restart o => exact taken .restart o ran

end

end Sys2Proof.Machine

open Sys2Proof Sys2Proof.Machine

/-- Settles O58: a step on an empty queue lets time pass, which reaches no holder, and every command keeps the hold counts right. -/
theorem holdCountsStayHolders : Obligations.HoldCountsStayHolders := by
  intro s t h stepped
  unfold step at stepped
  split at stepped
  · obtain rfl := Host.Outcome.next.inj stepped
    exact (KeepsAccount.ite (.refl s) (keepsAccount_elapse s 1)).holdsAreHolders h
  · next c cs _ =>
    have h' : HoldsAreHolders { s with pending := cs } := h
    exact holdsAreHolders_exec h' stepped
end

section
/-! Admission (R96 to R98): which check refuses a frame and how it is answered, and the statement about refused frames. -/

namespace Sys2Proof.Machine
open Sys2Proof

/-! ### The end character of a FRAME that is validated (R111) -/

/-- The line monitor has taken the end character of a FRAME on port p, and the receiver is in no FRAME. -/
def State.frameOver (s : State) (p : Port) : State :=
  (s.modPort p (fun x => { x with idleCount := 0, watch := some 1 })).setReception p .none

theorem port_frameOver (s : State) (p : Port) :
    (s.frameOver p).port p = { s.port p with idleCount := 0, watch := some 1, reception := .none } := by
  simp [State.frameOver, State.setReception]

theorem lineCharacter_of_inService {s : State} {p : Port} (serves : (s.port p).state.inService = true) :
    s.lineCharacter p false = s.modPort p (fun x => { x with idleCount := 0, watch := some 1 }) := by
  have enabled : (s.port p).state ≠ .disabled := fun disabled => by simp [disabled, PortState.inService] at serves
  simp [State.lineCharacter, enabled]

theorem inService_of_receives {s : State} {p : Port} (receives : s.receives p = true) :
    (s.port p).state.inService = true := by
  simp only [State.receives, Bool.and_eq_true] at receives
  exact receives.1

theorem receives_frameOver (s : State) (p : Port) : (s.frameOver p).receives p = s.receives p := by
  rw [State.receives, port_frameOver]
  rfl

theorem arriveFrame_of_receives {s : State} {p : Port} {chars : List Byte} {k : List Byte × Nat} (receives : s.receives p = true)
    (taken : (s.port p).reception ≠ .passingOver) (collects : State.collected (s.port p).reception chars = k) :
    s.arriveFrame p chars = (s.frameOver p).frameEnd p k.1 k.2 := by
  subst collects
  unfold State.arriveFrame
  rw [lineCharacter_of_inService (inService_of_receives receives)]
  dsimp only
  rw [State.port_modPort_self]
  have receives' : (s.frameOver p).receives p = true := (receives_frameOver s p).trans receives
  exact if_pos (Bool.and_eq_true_iff.mpr ⟨receives', bne_iff_ne.mpr taken⟩)

theorem frameEnd_of_good {s : State} {p : Port} {chars : List Byte} {n : Nat} (good : goodFrame chars n = true) :
    s.frameEnd p chars n
      = s.admission p (chars.take Config.headerBytes) ((chars.drop Config.headerBytes).take (n - 13)) := if_pos good

/-- A good frame that arrives goes through the checks of admission. -/
theorem exec_frameReceived_good {s : State} {p : Port} {chars : List Byte} {k : List Byte × Nat} (h : s.validatesFrame p)
    (collects : State.collected (s.port p).reception chars = k) (good : goodFrame k.1 k.2 = true) :
    exec (.frameReceived p chars) s
      = .next ((s.frameOver p).admission p (k.1.take 11) ((k.1.drop 11).take (k.2 - 13))) := by
  obtain ⟨run, receives, taken⟩ := h
  show running (fun s => s.arriveFrame p chars) s = _
  rw [running_of_notReset run, arriveFrame_of_receives receives taken collects, frameEnd_of_good good]
  rfl

/-! ### The checks of admission (R96) -/

section
variable {s : State} {p : Port} {image : List Byte} (payload : List Byte)

/-- Checks 1 to 3. -/
theorem admission_of_refusesBusy (busy : s.refusesBusy p (Header.decode image).dst) :
    s.admission p image payload = s.nakBusy p := by
  unfold State.admission
  dsimp only
  split
  · rfl
  · next ready =>
    split
    · rfl
    · next serves =>
      refine if_pos ?_
      obtain pending | ⟨listen, foreign⟩ | ⟨own, full⟩ := busy
      · exact absurd pending ready
      · exact absurd ⟨listen, by simpa using foreign⟩ serves
      · exact ⟨by simpa using own, full⟩

/-- What is left of admission behind checks 1 to 3. -/
theorem admission_of_not_refusesBusy (ready : ¬ s.refusesBusy p (Header.decode image).dst) :
    s.admission p image payload =
      if s.freeCount ≤ s.settings.reserve.toNat then (s.nakFull p).raise (.event .admitRefused)
      else if (s.portRec p).quota.toNat ≤ s.occupancy p then s.nakFull p
      else match s.firstFree with
        | none => s
        | some b => s.admitFrame p b image payload ((Header.decode image).dst == s.settings.gsn) := by
  simp only [State.refusesBusy, not_or, not_and] at ready
  obtain ⟨clear, serves, room⟩ := ready
  unfold State.admission
  dsimp only
  exact (if_neg clear).trans ((if_neg (by simpa using serves)).trans ((if_neg (by simpa using room)).trans rfl))

/-- Check 4. -/
theorem admission_of_reserved (ready : ¬ s.refusesBusy p (Header.decode image).dst)
    (reserved : s.freeCount ≤ s.settings.reserve.toNat) :
    s.admission p image payload = (s.nakFull p).raise (.event .admitRefused) := by
  rw [admission_of_not_refusesBusy payload ready, if_pos reserved]

/-- Check 5. -/
theorem admission_of_overQuota (ready : ¬ s.refusesBusy p (Header.decode image).dst)
    (free : s.settings.reserve.toNat < s.freeCount) (full : (s.portRec p).quota.toNat ≤ s.occupancy p) :
    s.admission p image payload = s.nakFull p := by
  rw [admission_of_not_refusesBusy payload ready, if_neg (Nat.not_le.mpr free), if_pos full]

end

/-! ### The answers to a refused frame (R98) -/

theorem port_nakBusy (s : State) (p : Port) : (s.nakBusy p).port p = { s.port p with
    control := (s.port p).control ++ [.answer (.nak .busy)]
    counters := { (s.port p).counters with nakBusySent := (s.port p).counters.nakBusySent + 1 } } := by
  simp [State.nakBusy, State.modPortCount, State.pushControl]

theorem port_nakFull (s : State) (p : Port) : (s.nakFull p).port p = { s.port p with
    control := (s.port p).control ++ [.answer (.nak .full)]
    counters := { (s.port p).counters with nakFullSent := (s.port p).counters.nakFullSent + 1 } } := by
  simp [State.nakFull, State.modPortCount, State.pushControl]

/-- Checks 1 to 3 read nothing of the line. -/
theorem refusesBusy_frameOver (s : State) (p : Port) (dst : Station) :
    (s.frameOver p).refusesBusy p dst ↔ s.refusesBusy p dst := by
  unfold State.refusesBusy
  rw [port_frameOver]
  rfl

end Sys2Proof.Machine

open Sys2Proof Sys2Proof.Machine

/-- Settles O8: the frame goes through the checks of admission, and the first that fails settles the answer. -/
theorem frameRefusedByAdmission : Obligations.FrameRefusedByAdmission := by
  intro s p chars h k dst c good
  have ran := exec_frameReceived_good h rfl good
  have ready (b : ¬ s.refusesBusy p dst) : ¬ (s.frameOver p).refusesBusy p dst :=
    fun busy => b ((refusesBusy_frameOver s p dst).mp busy)
  refine ⟨fun busy => ⟨_, ran, ?_⟩, fun notBusy reserved => ⟨_, ran, ?_⟩, fun notBusy free full => ⟨_, ran, ?_⟩⟩
  · rw [admission_of_refusesBusy _ ((refusesBusy_frameOver s p dst).mpr busy), port_nakBusy, port_frameOver]
    exact ⟨rfl, rfl, rfl, rfl, rfl, rfl, rfl, rfl⟩
  · have only := onlyFlags_raise ((s.frameOver p).nakFull p) (.event .admitRefused)
    rw [admission_of_reserved _ (ready notBusy) reserved, only.pool, only.mgmt, only.port, port_nakFull, port_frameOver]
    exact ⟨rfl, rfl, flagged_raise _ _, rfl, rfl, rfl, rfl⟩
  · rw [admission_of_overQuota _ (ready notBusy) free full, port_nakFull, port_frameOver]
    exact ⟨rfl, rfl, rfl, rfl, rfl, rfl, rfl, rfl⟩
end

section
/-! The re-send timer of own HOLD (R104): its expiry, and what leaves it to run on. -/

namespace Sys2Proof.Machine
open Sys2Proof

/-! ### The passing of time at the re-send timer (R104, R171) -/

theorem ownHold_elapse (s : State) (d : Nat) (p : Port) :
    ((s.elapse d).port p).ownHold = (s.port p).ownHold.map (· - d) := by
  rw [State.port_elapse]
  rfl

theorem queue_modPort {s : State} {p q : Port} {f : PortSt → PortSt} {k : QueueId} (same : ∀ x, (f x).queue k = x.queue k) :
    (s.modPort p f).queue q k = s.queue q k := by
  rw [State.queue, State.port_modPort]
  split
  · next named => rw [same, named]; rfl
  · rfl

/-- R104: the expiry sends one more HOLD and starts the timer again. -/
theorem holdResendExpiry_of_running {s : State} {p : Port} {left : Nat} (holding : (s.port p).ownHold = some left) :
    s.holdResendExpiry p = ((s.elapse left).pushControl p (.hold (s.portRec p).holdTime)).modPort p
      (fun x => { x with ownHold := some ((s.portRec p).holdTime.toNat * 25) }) := by
  rw [State.holdResendExpiry, holding]

/-! ### What leaves the timer to run on -/

/-- R141: a write of a PORT record reaches no port's own items. -/
theorem ports_opWritePort (s : State) (q : Request) : (opWritePort s q).state.ports = s.ports := by
  unfold opWritePort
  split
  · rfl
  · split
    · rfl
    · split
      · rfl
      · split
        · rfl
        · split <;> rfl

theorem ownHold_clearTally (s : State) (p q : Port) : ((s.clearTally p).port q).ownHold = (s.port q).ownHold := by
  unfold State.clearTally
  split
  · rw [State.port_modPort]
    split
    · next named => rw [named]
    · rfl
  · rfl

theorem ownHold_lineLoss (s : State) (p : Port) : ((s.lineLoss p).port p).ownHold = (s.port p).ownHold := by
  rw [State.lineLoss, ownHold_clearTally, (onlyFlags_judge _ _ _).port, State.port_modPort_self]

/-- R116: a loss of signal is declared where the watch runs, after the time it has left. -/
theorem arriveLoss_of_watched {s : State} {p : Port} {left : Nat} (enabled : (s.port p).state ≠ .disabled)
    (watched : (s.port p).watch = some left) : s.arriveLoss p = ((s.elapse left).breakReception p).lineLoss p := by
  rw [State.arriveLoss, if_neg enabled, watched]

theorem breakReception_of_not_taking {s : State} {p : Port} (idle : (s.port p).reception.isTaking = false) :
    s.breakReception p = s.setReception p .none := by
  simp [State.breakReception, idle]

end Sys2Proof.Machine

open Sys2Proof Sys2Proof.Machine

/-- Settles O15: the expiry in full, and the three acts that leave the timer to the time that passes. -/
theorem ownHoldIsResent : Obligations.OwnHoldIsResent := by
  refine ⟨fun s p left run holding => ⟨_, running_of_notReset run (·.holdResendExpiry p), ?_⟩, fun s q p => ?_,
    fun s p left run enabled _ idle watched => ⟨_, running_of_notReset run (·.arriveLoss p), ?_⟩, fun s p run empty => ?_⟩
  · have short : (s.portRec p).holdTime.toNat * 25 ≤ 6375 := by
      have := (s.portRec p).holdTime.isLt
      omega
    rw [holdResendExpiry_of_running holding, State.port_modPort_self, State.pushControl, State.port_modPort_self,
      State.port_elapse]
    refine ⟨rfl, rfl, short, rfl, fun k => ?_⟩
    rw [queue_modPort (fun x => by cases k <;> rfl), queue_modPort (fun x => by cases k <;> rfl), queue_elapse]
  · rw [State.port, ports_opWritePort]
    rfl
  · have idle' : ((s.elapse left).port p).reception.isTaking = false := by rwa [State.port_elapse]
    rw [arriveLoss_of_watched enabled watched, ownHold_lineLoss, breakReception_of_not_taking idle', State.setReception,
      State.port_modPort_self, ownHold_elapse]
  · refine ⟨s.elapse 1, ?_, ownHold_elapse s 1 p⟩
    rw [step, empty]
    simp [State.tick, run]
end

section
/-! The pool is accounted for (R95, R101): every buffer is counted once, and an arrival leaves the reserve. -/

namespace Sys2Proof.Machine
open Sys2Proof

/-! ### Every buffer is counted once (R95) -/

/-- A buffer is free, in use by one port's frames, or held by the gateway's own. -/
theorem countP_buffers (l : List Buffer) :
    l.countP (fun b => b.holds == 0) + l.countP (fun b => b.holds != 0 && b.origin == .port 0)
      + l.countP (fun b => b.holds != 0 && b.origin == .port 1) + l.countP (fun b => b.holds != 0 && b.origin == .port 2)
      + l.countP (fun b => b.holds != 0 && b.origin == .port 3) + l.countP (fun b => b.holds != 0 && b.origin == .gateway)
      = l.length := by
  induction l with
  | nil => rfl
  | cons b l ih =>
    simp only [List.countP_cons, List.length_cons]
    by_cases free : b.holds = 0
    · simp [free]
      omega
    · cases origin : b.origin with
      | port p => fin_cases p <;> simp [free] <;> omega
      | gateway =>
        simp [free]
        omega

/-! ### What never takes a buffer (R94, R97) -/

/-- From s to t the free count did not fall. -/
def FreesOnly (s t : State) : Prop := s.freeCount ≤ t.freeCount

namespace FreesOnly

theorem refl (s : State) : FreesOnly s s := Nat.le_refl _

theorem trans {s t u : State} (h : FreesOnly s t) (k : FreesOnly t u) : FreesOnly s u := Nat.le_trans h k

/-- `trans` with the later change named first. -/
theorem after {s t u : State} (k : FreesOnly t u) (h : FreesOnly s t) : FreesOnly s u := h.trans k

theorem ofPool {s t : State} (same : t.pool = s.pool) : FreesOnly s t := by
  rw [FreesOnly, State.freeCount, State.freeCount, same]

theorem ite {s t u : State} {c : Prop} [Decidable c] (h : FreesOnly s t) (k : FreesOnly s u) :
    FreesOnly s (if c then t else u) := by
  split
  · exact h
  · exact k

theorem foldl {α : Type} {f : State → α → State} (h : ∀ s a, FreesOnly s (f s a)) (l : List α) (s : State) :
    FreesOnly s (l.foldl f s) := by
  induction l generalizing s with
  | nil => exact refl s
  | cons a l ih => exact (h s a).trans (ih (f s a))

end FreesOnly

/-- R94: a release frees its buffer or leaves it in use. -/
theorem freesOnly_release (s : State) (b : BufIx) : FreesOnly s (s.release b) := by
  have lowered : (s.buffer b).holds = 0 → (s.buffer b).holds - 1 = 0 := fun free => by rw [free]
  rw [FreesOnly, State.freeCount, State.freeCount, pool_release, countP_put]
  simp only [beq_iff_eq]
  show _ ≤ _ - (if (s.buffer b).holds = 0 then 1 else 0) + _
  split <;> split <;> omega

theorem freesOnly_entryLeft (s : State) (e : QueueEntry) : FreesOnly s (s.entryLeft e) := by
  have reported : s.reportRestart.pool = s.pool := by
    unfold State.reportRestart
    split <;> rfl
  have released (t : State) : FreesOnly t (t.releaseOpt e.buffer) := by
    cases e.buffer with
    | none => exact .refl t
    | some b => exact freesOnly_release t b
  exact (released _).after (.ite (.ofPool reported) (.refl s))

theorem freesOnly_flushEntry (p : Port) (s : State) (e : QueueEntry) : FreesOnly s (s.flushEntry p e) := by
  unfold State.flushEntry
  split <;> exact freesOnly_entryLeft s e

theorem freesOnly_dropMgmt (s : State) (p : Port) : FreesOnly s (s.dropMgmt p) :=
  (FreesOnly.foldl (fun s (e : MgmtEntry) => freesOnly_release s e.buffer) _ _).after (.ofPool rfl)

/-! ### Claims, which reach no buffer (R60, R61, R64) -/

theorem pool_freeRecord (s : State) (i : CallIx) : (s.freeRecord i).pool = s.pool := by
  unfold State.freeRecord
  split
  · exact (onlyFlags_judge _ _ _).pool
  · rfl

theorem pool_portDownRecord (p : Port) (s : State) (i : CallIx) : (s.portDownRecord p i).pool = s.pool := by
  have withdrawn : (s.withdrawIfQueued i).pool = s.pool := by
    rw [withdrawIfQueued_eq]
    rfl
  unfold State.portDownRecord
  dsimp only
  split
  · rw [pool_sendCallReply, pool_freeRecord]
  · split
    · rw [pool_freeRecord, withdrawn]
    · split
      · exact pool_freeRecord s i
      · rfl

theorem pool_takeUndeliverable (s : State) (tag : Tag) (abort : Bool) : (s.takeUndeliverable tag abort).pool = s.pool := by
  unfold State.takeUndeliverable
  split
  · rfl
  · split
    · split
      · rw [pool_sendCallReply, pool_freeRecord]
      · rw [(onlyFlags_raise _ _).pool, pool_sendCallReply, pool_freeRecord]
    · rfl

theorem freesOnly_takeClaim (s : State) (c : Claim) : FreesOnly s (s.takeClaim c) := by
  cases c with
  | delivered p tag =>
    obtain ⟨_, _, pool, _⟩ := takeDelivered_frame s tag
    exact .ofPool pool
  | undeliverable p tag abort => exact .ofPool (pool_takeUndeliverable s tag abort)
  | targetPortDown p tag =>
    show FreesOnly s (s.takeTargetPortDown p tag)
    unfold State.takeTargetPortDown
    split
    · exact .refl s
    · exact .ofPool (pool_portDownRecord p s _)
  | portDown p => exact .foldl (fun s i => .ofPool (pool_portDownRecord p s i)) _ s

theorem freesOnly_settleDemands (s : State) (p : Port) : FreesOnly s (s.settleDemands p) :=
  (FreesOnly.foldl freesOnly_takeClaim _ _).after (.ofPool rfl)

/-! ### Port states and the line -/

theorem freesOnly_leaveService (s : State) (p : Port) (target : PortState) : FreesOnly s (s.leaveService p target) := by
  have claimed (u : State) : FreesOnly u (u.addClaim (.portDown p)) := .ofPool rfl
  refine (freesOnly_settleDemands s p).trans ((freesOnly_dropMgmt _ p).after ((claimed _).after ?_))
  exact (FreesOnly.foldl (freesOnly_flushEntry p) _ _).after (.ofPool (onlyFlags_judgePort _ p _).pool)

theorem freesOnly_enterService (s : State) (p : Port) (target : PortState) : FreesOnly s (s.enterService p target) := by
  refine (freesOnly_settleDemands s p).trans (.ofPool ?_)
  unfold State.enterService
  rw [pool_judgeHold, (onlyFlags_judgePort _ p _).pool]
  rfl

theorem freesOnly_raiseScore (s : State) (p : Port) (n : Nat) : FreesOnly s (s.raiseScore p n) := by
  unfold State.raiseScore
  exact .ite (.ite (freesOnly_leaveService s p _) (.ofPool (onlyFlags_judge _ _ _).pool)) (.refl s)

theorem freesOnly_badFrame (s : State) (p : Port) : FreesOnly s (s.badFrame p) :=
  (freesOnly_raiseScore _ p _).after (.ofPool rfl)

theorem freesOnly_breakReception (s : State) (p : Port) : FreesOnly s (s.breakReception p) := by
  unfold State.breakReception
  exact .ite ((freesOnly_badFrame _ p).after (.ofPool rfl)) (.ofPool rfl)

theorem freesOnly_receiveCharacter (s : State) (p : Port) (c : Character) : FreesOnly s (s.receiveCharacter p c) := by
  cases c with
  | start => exact (freesOnly_breakReception s p).trans (.ofPool rfl)
  | data b =>
    unfold State.receiveCharacter
    dsimp only
    split <;> exact .ofPool rfl
  | endChar => exact .refl s
  | idleMark => exact freesOnly_breakReception s p
  | control => exact freesOnly_breakReception s p

theorem freesOnly_recoveryRun (s : State) (p : Port) : FreesOnly s (s.recoveryRun p) := by
  unfold State.recoveryRun
  refine .ite (FreesOnly.after (.ite ?_ (.refl _)) (.ofPool rfl)) (.refl s)
  split
  · exact (freesOnly_enterService _ p _).trans (.ofPool (onlyFlags_raise _ _).pool)
  · exact .refl _

theorem freesOnly_lineIdleRun (s : State) (p : Port) : FreesOnly s (s.lineIdleRun p) :=
  (freesOnly_recoveryRun _ p).after (.ofPool (onlyFlags_judge _ _ _).pool)

theorem freesOnly_lineCharacter (s : State) (p : Port) (idle : Bool) : FreesOnly s (s.lineCharacter p idle) := by
  unfold State.lineCharacter
  exact .ite (.refl s) (.ite (freesOnly_lineIdleRun s p) (.ofPool rfl))

/-! ### Arrivals leave the reserve (R96, R101) -/

/-- From s to t the free count may have fallen, but not below RESERVE as it stood in s. -/
def LeavesReserve (s t : State) : Prop := t.freeCount < s.freeCount → s.settings.reserve.toNat ≤ t.freeCount

/-- Behind a change that takes no buffer and leaves the settings. -/
theorem LeavesReserve.after {s t u : State} (k : LeavesReserve t u) (h : FreesOnly s t) (settings : t.settings = s.settings) :
    LeavesReserve s u := fun fell => settings ▸ k (Nat.lt_of_lt_of_le fell h)

theorem FreesOnly.leavesReserve {s t : State} (h : FreesOnly s t) : LeavesReserve s t := fun fell => absurd fell (Nat.not_lt.mpr h)

/-- R97: an admitted frame takes one free buffer. -/
theorem freeCount_admitFrame {s : State} {b : BufIx} (free : s.firstFree = some b) (p : Port) (image payload : List Byte)
    (m : Bool) : (s.admitFrame p b image payload m).freeCount + 1 = s.freeCount := by
  have pool : (s.admitFrame p b image payload m).pool = put s.pool b ⟨1, .port p, image, payload, s.timeBase⟩ := by
    have queued (t : State) : (t.queueAdmitted p b m).pool = t.pool := by
      unfold State.queueAdmitted
      split <;> rfl
    have lowered (t : State) : (t.lowerScore p).pool = t.pool := by
      unfold State.lowerScore
      split
      · exact (onlyFlags_judge _ _ _).pool
      · rfl
    rw [State.admitFrame, pool_judgeHold, queued, lowered]
    exact (onlyFlags_judge _ _ _).pool
  have was : (look s.pool b).holds = 0 := holds_firstFree free
  have counted : 0 < s.pool.toList.countP (fun x => x.holds == 0) :=
    List.countP_pos_iff.mpr ⟨look s.pool b, by simp [look], by simp [was]⟩
  rw [State.freeCount, pool, countP_put, was]
  simpa [State.freeCount] using Nat.sub_add_cancel counted

/-- R96, check 4: a frame is admitted only where more than RESERVE buffers are free. -/
theorem leavesReserve_admission (s : State) (p : Port) (image payload : List Byte) :
    LeavesReserve s (s.admission p image payload) := by
  have busy : FreesOnly s (s.nakBusy p) := .ofPool rfl
  have full : FreesOnly s (s.nakFull p) := .ofPool rfl
  by_cases refused : s.refusesBusy p (Header.decode image).dst
  · rw [admission_of_refusesBusy payload refused]
    exact busy.leavesReserve
  · rw [admission_of_not_refusesBusy payload refused]
    split
    · exact (full.trans (.ofPool (onlyFlags_raise _ _).pool)).leavesReserve
    · next above =>
      split
      · exact full.leavesReserve
      · split
        · exact (FreesOnly.refl s).leavesReserve
        · next free =>
          have taken := freeCount_admitFrame free p image payload ((Header.decode image).dst == s.settings.gsn)
          intro _
          omega

theorem leavesReserve_frameEnd (s : State) (p : Port) (chars : List Byte) (n : Nat) :
    LeavesReserve s (s.frameEnd p chars n) := by
  unfold State.frameEnd
  split
  · exact leavesReserve_admission s p _ _
  · exact (freesOnly_badFrame s p).leavesReserve

theorem leavesReserve_arriveFrame (s : State) (p : Port) (chars : List Byte) : LeavesReserve s (s.arriveFrame p chars) := by
  have ended : FreesOnly s ((s.lineCharacter p false).setReception p .none) :=
    (freesOnly_lineCharacter s p false).trans (.ofPool rfl)
  have settings := ((keeps_lineCharacter s p false).trans (keeps_setReception _ p .none)).settings
  unfold State.arriveFrame
  dsimp only
  split
  · exact (leavesReserve_frameEnd _ p _ _).after ended settings
  · exact ended.leavesReserve

theorem leavesReserve_arriveCharacter (s : State) (p : Port) (c : Character) : LeavesReserve s (s.arriveCharacter p c) := by
  unfold State.arriveCharacter
  split
  · exact (FreesOnly.refl s).leavesReserve
  · split
    · exact leavesReserve_arriveFrame s p []
    · exact ((freesOnly_receiveCharacter s p c).trans (freesOnly_lineCharacter _ p _)).leavesReserve

theorem leavesReserve_running (f : State → State) {s : State} (h : LeavesReserve s (f s)) :
    ∃ t, running f s = .next t ∧ LeavesReserve s t := by
  unfold running
  split
  · exact ⟨s, rfl, (FreesOnly.refl s).leavesReserve⟩
  · exact ⟨f s, rfl, h⟩

end Sys2Proof.Machine

open Sys2Proof Sys2Proof.Machine

/-- Settles O53: the buffers are counted by what they are, and the two commands that may admit a frame leave the reserve. -/
theorem poolIsAccountedFor : Obligations.PoolIsAccountedFor := by
  refine ⟨fun s => ?_, fun s p chars => leavesReserve_running (·.arriveFrame p chars) (leavesReserve_arriveFrame s p chars),
    fun s p c => leavesReserve_running (·.arriveCharacter p c) (leavesReserve_arriveCharacter s p c)⟩
  exact (countP_buffers s.pool.toList).trans (by simp)
end

section
/-! The error score tells isolation (R120, R121, R136): what a port's standing is, what every operation does to it, and the statement
about every step. -/

namespace Sys2Proof.Machine
open Sys2Proof

/-! ### The standing of a port (R120, R121, R136) -/

/-- What the rule of the error score reads of a port: its state, its score and its recovery tally. -/
def PortSt.standing (x : PortSt) : PortState × Nat × Nat := (x.state, x.score, x.recoveryTally)

/-- R120, R121, R136: the rule of the error score, for one port. -/
def PortSt.scoreTells (x : PortSt) : Prop :=
  x.score ≤ Config.scoreCap ∧ (x.score = Config.scoreCap ↔ x.state = .isolated) ∧ x.recoveryTally ≤ Config.recoveryRuns

theorem scoreTellsIsolation_iff (s : State) : ScoreTellsIsolation s ↔ ∀ p, (s.port p).scoreTells := Iff.rfl

theorem scoreTells_of_standing {x y : PortSt} (same : y.standing = x.standing) (h : x.scoreTells) : y.scoreTells := by
  obtain ⟨state, score, tally⟩ : y.state = x.state ∧ y.score = x.score ∧ y.recoveryTally = x.recoveryTally := by
    simpa [PortSt.standing] using same
  unfold PortSt.scoreTells
  rw [state, score, tally]
  exact h

/-- R121: a port that is not ISOLATED has room below the cap. -/
theorem scoreTells_of_below {x y : PortSt} (h : x.scoreTells) (state : y.state = x.state) (serves : x.state.inService = true)
    (below : y.score < Config.scoreCap) (tally : y.recoveryTally = x.recoveryTally) : y.scoreTells := by
  obtain ⟨_, _, short⟩ := h
  refine ⟨below.le, iff_of_false below.ne fun isolated => ?_, tally ▸ short⟩
  rw [← state, isolated] at serves
  exact nomatch serves

theorem score_lt_of_inService {x : PortSt} (h : x.scoreTells) (serves : x.state.inService = true) :
    x.score < Config.scoreCap := by
  obtain ⟨most, full, _⟩ := h
  refine lt_of_le_of_ne most fun reached => ?_
  rw [full.mp reached] at serves
  exact nomatch serves

/-- R121, R130: a port that leaves service has the cap exactly in ISOLATED. -/
theorem scoreTells_portLeft (target : PortState) (x : PortSt) : (portLeft target x).scoreTells := by
  cases target <;> simp [PortSt.scoreTells, portLeft, Config.scoreCap]

/-- R132: a port that enters service has score 0. -/
theorem scoreTells_portEntered {target : PortState} (serves : target.inService = true) (x : PortSt) :
    (portEntered target x).scoreTells := by
  cases target <;> simp [PortSt.scoreTells, portEntered, Config.scoreCap, PortState.inService] at serves ⊢

/-! ### What keeps the rule -/

/-- From s to t the rule of the error score is kept on every port. -/
def KeepsScore (s t : State) : Prop := ScoreTellsIsolation s → ScoreTellsIsolation t

namespace KeepsScore

theorem refl (s : State) : KeepsScore s s := id

theorem trans {s t u : State} (h : KeepsScore s t) (k : KeepsScore t u) : KeepsScore s u := k ∘ h

/-- `trans` with the later change named first. -/
theorem after {s t u : State} (k : KeepsScore t u) (h : KeepsScore s t) : KeepsScore s u := h.trans k

theorem ite {s t u : State} {c : Prop} [Decidable c] (h : KeepsScore s t) (k : KeepsScore s u) :
    KeepsScore s (if c then t else u) := by
  split
  · exact h
  · exact k

theorem foldl {α : Type} {f : State → α → State} (h : ∀ s a, KeepsScore s (f s a)) (l : List α) (s : State) :
    KeepsScore s (l.foldl f s) := by
  induction l generalizing s with
  | nil => exact refl s
  | cons a l ih => exact (h s a).trans (ih (f s a))

/-- A change that leaves the standing of every port. -/
theorem ofStanding {s t : State} (same : ∀ p, (t.port p).standing = (s.port p).standing) : KeepsScore s t :=
  fun h p => scoreTells_of_standing (same p) (h p)

theorem ofPorts {s t : State} (ports : t.ports = s.ports) : KeepsScore s t :=
  ofStanding fun p => by rw [port_of_ports ports]

theorem ofHolding {s t : State} (h : OnlyHolding s t) : KeepsScore s t := ofStanding fun p => by
  rw [(h.ports p).1]
  rfl

theorem ofFlags {s t : State} (h : OnlyFlags s t) : KeepsScore s t := ofPorts h.ports

/-- A change of one port to a standing that follows the rule. -/
theorem modPort {s : State} {p : Port} {f : PortSt → PortSt} (h : (s.port p).scoreTells → (f (s.port p)).scoreTells) :
    KeepsScore s (s.modPort p f) := fun k q => by
  show ((s.modPort p f).port q).scoreTells
  rw [State.port_modPort]
  split
  · exact h (k p)
  · exact k q

/-- A change of one port that leaves its standing. -/
theorem ofPort {s : State} {p : Port} {f : PortSt → PortSt} (same : ∀ x, (f x).standing = x.standing) :
    KeepsScore s (s.modPort p f) := modPort (scoreTells_of_standing (same _))

end KeepsScore

/-! ### Flags, buffers, queues and deliveries -/

theorem keepsScore_raise (s : State) (f : Flag) : KeepsScore s (s.raise f) := .ofFlags (onlyFlags_raise s f)

theorem keepsScore_judge (s : State) (l : Level) (was : Bool) : KeepsScore s (s.judge l was) := .ofFlags (onlyFlags_judge s l was)

theorem keepsScore_release (s : State) (b : BufIx) : KeepsScore s (s.release b) := .ofHolding (onlyHolding_release s b)

theorem keepsScore_modPortCount (s : State) (p : Port) (f : PortCounters → PortCounters) : KeepsScore s (s.modPortCount p f) :=
  .ofPort fun _ => rfl

theorem keepsScore_modCount (s : State) (f : GatewayCounters → GatewayCounters) : KeepsScore s (s.modCount f) := .ofPorts rfl

theorem keepsScore_pushControl (s : State) (p : Port) (c : Control) : KeepsScore s (s.pushControl p c) := .ofPort fun _ => rfl

theorem keepsScore_setReception (s : State) (p : Port) (r : Reception) : KeepsScore s (s.setReception p r) := .ofPort fun _ => rfl

theorem keepsScore_elapse (s : State) (d : Nat) : KeepsScore s (s.elapse d) :=
  .ofStanding fun p => by rw [State.port_elapse]; rfl

theorem keepsScore_setQueue (s : State) (p : Port) (k : QueueId) (es : List QueueEntry) : KeepsScore s (s.setQueue p k es) :=
  .ofPort fun _ => by cases k <;> rfl

theorem keepsScore_deliver {s t : State} {p : Port} {k : QueueId} {e : QueueEntry} (delivered : s.deliver p k e = some t) :
    KeepsScore s t := by
  obtain ⟨-, rfl⟩ := deliver_eq_some.mp delivered
  exact (keepsScore_setQueue s p k _).trans (.ofPorts (ports_holdOpt _ _))

theorem keepsScore_offerReply (s : State) (p : Port) (e : QueueEntry) : KeepsScore s (s.offerReply p e) := by
  unfold State.offerReply
  split
  · next delivered => exact keepsScore_deliver delivered
  · exact keepsScore_raise s _

theorem keepsScore_sendCallReply (s : State) (r : CallRecord) (st : Status) : KeepsScore s (s.sendCallReply r st) :=
  keepsScore_offerReply s _ _

theorem keepsScore_reportRestart (s : State) : KeepsScore s s.reportRestart := by
  unfold State.reportRestart
  split <;> exact .ofPorts rfl

theorem keepsScore_entryLeft (s : State) (e : QueueEntry) : KeepsScore s (s.entryLeft e) := by
  have released (t : State) : KeepsScore t (t.releaseOpt e.buffer) := by
    cases e.buffer with
    | none => exact .refl t
    | some b => exact keepsScore_release t b
  exact (released _).after (.ite (keepsScore_reportRestart s) (.refl s))

theorem keepsScore_abortQueue (s : State) (p : Port) (k : QueueId) : KeepsScore s (s.abortQueue p k) := by
  refine (KeepsScore.foldl (fun s e => ?_) _ _).after (keepsScore_setQueue s p k _)
  have left : KeepsScore s ((s.modPortCount p (fun c => { c with txDropped := c.txDropped + 1 })).entryLeft e) :=
    (keepsScore_modPortCount s p _).trans (keepsScore_entryLeft _ e)
  unfold State.abortEntry
  split
  · exact left.trans (.ofPorts rfl)
  · exact left

/-! ### The call table -/

theorem keepsScore_freeRecord (s : State) (i : CallIx) : KeepsScore s (s.freeRecord i) := by
  unfold State.freeRecord
  exact .ite ((keepsScore_judge _ _ _).after (.ofPorts rfl)) (.refl s)

theorem keepsScore_withdrawn_freed (s : State) (i : CallIx) : KeepsScore s ((s.withdrawIfQueued i).freeRecord i) :=
  (keepsScore_freeRecord _ i).after (.ite (.ofPorts rfl) (.refl s))

theorem keepsScore_freed_answered (s : State) (i : CallIx) (r : CallRecord) (st : Status) :
    KeepsScore s ((s.freeRecord i).sendCallReply r st) := (keepsScore_freeRecord s i).trans (keepsScore_sendCallReply _ r st)

theorem keepsScore_portDownRecord (p : Port) (s : State) (i : CallIx) : KeepsScore s (s.portDownRecord p i) := by
  unfold State.portDownRecord
  exact .ite (keepsScore_freed_answered s i _ _)
    (.ite (keepsScore_withdrawn_freed s i) (.ite (keepsScore_freeRecord s i) (.refl s)))

theorem keepsScore_takeClaim (s : State) (c : Claim) : KeepsScore s (s.takeClaim c) := by
  cases c with
  | delivered p tag =>
    obtain ⟨_, ports, _⟩ := takeDelivered_frame s tag
    exact .ofPorts ports
  | undeliverable p tag abort =>
    show KeepsScore s (s.takeUndeliverable tag abort)
    unfold State.takeUndeliverable
    split
    · exact .refl s
    · exact .ite (.ite (keepsScore_freed_answered s _ _ _)
        ((keepsScore_freed_answered s _ _ _).trans (keepsScore_raise _ _))) (.refl s)
  | targetPortDown p tag =>
    show KeepsScore s (s.takeTargetPortDown p tag)
    unfold State.takeTargetPortDown
    split
    · exact .refl s
    · exact keepsScore_portDownRecord p s _
  | portDown p => exact .foldl (keepsScore_portDownRecord p) _ s

theorem keepsScore_takeOldest (s : State) (sort : Claim → Bool) : KeepsScore s (s.takeOldest sort) := by
  unfold State.takeOldest
  split
  · exact .refl s
  · exact (keepsScore_takeClaim _ _).after (.ofPorts rfl)

theorem keepsScore_settleDemands (s : State) (p : Port) : KeepsScore s (s.settleDemands p) :=
  (KeepsScore.foldl keepsScore_takeClaim _ _).after (.ofPorts rfl)

theorem keepsScore_withdrawStep (s : State) (p : Port) (tag : Tag) : KeepsScore s (s.withdrawStep p tag) := by
  have taken (s : State) (q : DataQ) : KeepsScore s (s.withdrawFrom p tag q) :=
    (KeepsScore.foldl keepsScore_entryLeft _ _).after (keepsScore_setQueue s p _ _)
  unfold State.withdrawStep
  exact .ite ((KeepsScore.foldl taken _ _).after (.ofPorts rfl)) (.refl s)

theorem keepsScore_callExpiry (s : State) (i : CallIx) : KeepsScore s (s.callExpiry i) := by
  have expired (s : State) : KeepsScore s (s.expire i) :=
    (((keepsScore_withdrawn_freed s i).trans (keepsScore_sendCallReply _ _ _)).trans (keepsScore_raise _ _)).trans
      (keepsScore_modCount _ _)
  unfold State.callExpiry
  exact .ite ((keepsScore_elapse s _).trans (expired _)) (.refl s)

/-! ### Port states, the error score and recovery (R120 to R139) -/

theorem keepsScore_leaveService (s : State) (p : Port) (target : PortState) : KeepsScore s (s.leaveService p target) := by
  have left (s : State) : KeepsScore s (s.modPort p (portLeft target)) := .modPort fun _ => scoreTells_portLeft target _
  have flushed (s : State) (e : QueueEntry) : KeepsScore s (s.flushEntry p e) := by
    unfold State.flushEntry
    split
    · exact (keepsScore_entryLeft s e).trans (.ofPorts rfl)
    · exact keepsScore_entryLeft s e
  have dropped (s : State) : KeepsScore s (s.dropMgmt p) :=
    (KeepsScore.foldl (fun s (e : MgmtEntry) => keepsScore_release s e.buffer) _ _).after (.ofPorts rfl)
  have claimed (s : State) : KeepsScore s (s.addClaim (.portDown p)) := .ofPorts rfl
  exact (((((keepsScore_settleDemands s p).trans (left _)).trans (.ofFlags (onlyFlags_judgePort _ p _))).trans
    (.foldl flushed _ _)).trans (claimed _)).trans (dropped _)

theorem keepsScore_enterService {target : PortState} (serves : target.inService = true) (s : State) (p : Port) :
    KeepsScore s (s.enterService p target) := by
  have entered (s : State) : KeepsScore s (s.modPort p (portEntered target)) :=
    .modPort fun _ => scoreTells_portEntered serves _
  exact (((keepsScore_settleDemands s p).trans (entered _)).trans (.ofFlags (onlyFlags_judgePort _ p _))).trans
    (.ofHolding (onlyHolding_judgeHold _ p))

/-- R133, R134: a change between LISTEN and FORWARD keeps the score of a port in service, which is below the cap. -/
theorem keepsScore_switchService {s : State} {p : Port} {target : PortState} (served : (s.port p).state.inService = true)
    (serves : target.inService = true) : KeepsScore s (s.switchService p target) := .modPort fun h => by
  have below := score_lt_of_inService h served
  obtain ⟨most, _, tally⟩ := h
  refine ⟨most, iff_of_false below.ne fun isolated => ?_, tally⟩
  rw [show target = .isolated from isolated] at serves
  exact nomatch serves

theorem keepsScore_transition (s : State) (p : Port) (target : PortState) : KeepsScore s (s.transition p target) := by
  unfold State.transition
  split
  · next serves =>
    split
    · next served => exact keepsScore_switchService served serves
    · exact keepsScore_enterService serves s p
  · exact keepsScore_leaveService s p target

/-- R121: an increase stays below the cap or is the entry into ISOLATED. -/
theorem keepsScore_raiseScore (s : State) (p : Port) (n : Nat) : KeepsScore s (s.raiseScore p n) := by
  unfold State.raiseScore
  split
  · next serves =>
    split
    · exact keepsScore_leaveService s p .isolated
    · next below =>
      exact (keepsScore_judge _ _ _).after (.modPort fun h => scoreTells_of_below h rfl serves (Nat.lt_of_not_le below) rfl)
  · exact .refl s

theorem keepsScore_lowerScore (s : State) (p : Port) : KeepsScore s (s.lowerScore p) := by
  unfold State.lowerScore
  split
  · next serves =>
    refine (keepsScore_judge _ _ _).after (.modPort fun h => scoreTells_of_below h rfl serves ?_ rfl)
    exact Nat.lt_of_le_of_lt (Nat.sub_le _ 1) (score_lt_of_inService h serves)
  · exact .refl s

/-- R137: a port recovers into service. -/
theorem inService_recoverTo {r : Recovery} {x : PortSt} {target : PortState} (recovers : State.recoverTo r x = some target) :
    target.inService = true := by
  unfold State.recoverTo at recovers
  split at recovers <;> simp at recovers <;> subst recovers <;> rfl

theorem keepsScore_recoveryRun (s : State) (p : Port) : KeepsScore s (s.recoveryRun p) := by
  have counted : KeepsScore s
      (s.modPort p (fun x => { x with recoveryTally := min Config.recoveryRuns (x.recoveryTally + 1) })) :=
    .modPort fun ⟨most, full, _⟩ => ⟨most, full, Nat.min_le_left _ _⟩
  unfold State.recoveryRun
  refine .ite (counted.trans (.ite ?_ (.refl _))) (.refl s)
  split
  · next recovers => exact (keepsScore_enterService (inService_recoverTo recovers) _ p).trans (keepsScore_raise _ _)
  · exact .refl _

theorem keepsScore_clearTally (s : State) (p : Port) : KeepsScore s (s.clearTally p) :=
  .ite (.modPort fun ⟨most, full, _⟩ => ⟨most, full, Nat.zero_le _⟩) (.refl s)

/-! ### The line (R111 to R117) -/

theorem keepsScore_lineIdleRun (s : State) (p : Port) : KeepsScore s (s.lineIdleRun p) :=
  (keepsScore_recoveryRun _ p).after ((keepsScore_judge _ _ _).after (KeepsScore.after (.ofPort fun _ => rfl) (.ofPort fun _ => rfl)))

theorem keepsScore_lineCharacter (s : State) (p : Port) (idle : Bool) : KeepsScore s (s.lineCharacter p idle) := by
  unfold State.lineCharacter
  exact .ite (.refl s) (.ite (keepsScore_lineIdleRun s p) (.ofPort fun _ => rfl))

theorem keepsScore_lineUnrecognised (s : State) (p : Port) : KeepsScore s (s.lineUnrecognised p) := by
  unfold State.lineUnrecognised
  exact .ite (.refl s) ((keepsScore_clearTally _ p).after (.ofPort fun _ => rfl))

theorem keepsScore_lineLoss (s : State) (p : Port) : KeepsScore s (s.lineLoss p) :=
  (keepsScore_clearTally _ p).after ((keepsScore_judge _ _ _).after (.ofPort fun _ => rfl))

theorem keepsScore_badFrame (s : State) (p : Port) : KeepsScore s (s.badFrame p) :=
  ((keepsScore_pushControl s p _).trans (keepsScore_modPortCount _ p _)).trans (keepsScore_raiseScore _ p _)

theorem keepsScore_breakReception (s : State) (p : Port) : KeepsScore s (s.breakReception p) := by
  unfold State.breakReception
  exact .ite ((keepsScore_setReception s p _).trans (keepsScore_badFrame _ p)) (keepsScore_setReception s p _)

theorem keepsScore_receiveCharacter (s : State) (p : Port) (c : Character) : KeepsScore s (s.receiveCharacter p c) := by
  cases c with
  | start => exact (keepsScore_breakReception s p).trans (keepsScore_setReception _ p _)
  | data b =>
    unfold State.receiveCharacter
    dsimp only
    split
    · exact keepsScore_setReception s p _
    · exact .refl s
    · exact .refl s
  | endChar => exact .refl s
  | idleMark => exact keepsScore_breakReception s p
  | control => exact keepsScore_breakReception s p

theorem keepsScore_admitFrame (s : State) (p : Port) (b : BufIx) (image payload : List Byte) (m : Bool) :
    KeepsScore s (s.admitFrame p b image payload m) := by
  have queued (t : State) : KeepsScore t (t.queueAdmitted p b m) := .ite (.ofPorts rfl) (.ofPort fun _ => rfl)
  exact (((((KeepsScore.ofHolding (onlyHolding_changeBuffer s b _)).trans (keepsScore_pushControl _ p _)).trans
    (keepsScore_modPortCount _ p _)).trans (keepsScore_lowerScore _ p)).trans (queued _)).trans
      (.ofHolding (onlyHolding_judgeHold _ p))

theorem keepsScore_admission (s : State) (p : Port) (image payload : List Byte) :
    KeepsScore s (s.admission p image payload) := by
  have busy : KeepsScore s (s.nakBusy p) := (keepsScore_pushControl s p _).trans (keepsScore_modPortCount _ p _)
  have full : KeepsScore s (s.nakFull p) := (keepsScore_pushControl s p _).trans (keepsScore_modPortCount _ p _)
  unfold State.admission
  refine .ite busy (.ite busy (.ite busy (.ite (full.trans (keepsScore_raise _ _)) (.ite full ?_))))
  split
  · exact .refl s
  · exact keepsScore_admitFrame s p _ _ _ _

/-- The line monitor's part in an arrival that ends the FRAME in reception. -/
theorem keepsScore_lineCharacter_ended (s : State) (p : Port) :
    KeepsScore s ((s.lineCharacter p false).setReception p .none) :=
  (keepsScore_lineCharacter s p false).trans (keepsScore_setReception _ p _)

theorem keepsScore_arriveFrame (s : State) (p : Port) (chars : List Byte) : KeepsScore s (s.arriveFrame p chars) := by
  have ended := keepsScore_lineCharacter_ended s p
  unfold State.arriveFrame
  refine .ite (ended.trans ?_) ended
  unfold State.frameEnd
  exact .ite (keepsScore_admission _ p _ _) (keepsScore_badFrame _ p)

theorem keepsScore_arriveCharacter (s : State) (p : Port) (c : Character) : KeepsScore s (s.arriveCharacter p c) := by
  unfold State.arriveCharacter
  exact .ite (.refl s) (.ite (keepsScore_arriveFrame s p [])
    ((keepsScore_receiveCharacter s p c).trans (keepsScore_lineCharacter _ p _)))

theorem keepsScore_arriveUnrecognised (s : State) (p : Port) : KeepsScore s (s.arriveUnrecognised p) := by
  unfold State.arriveUnrecognised
  exact .ite (.refl s) ((keepsScore_breakReception s p).trans (keepsScore_lineUnrecognised _ p))

theorem keepsScore_arriveLoss (s : State) (p : Port) : KeepsScore s (s.arriveLoss p) := by
  unfold State.arriveLoss
  refine .ite (.refl s) ?_
  split
  · exact .refl s
  · exact ((keepsScore_elapse s _).trans (keepsScore_breakReception _ p)).trans (keepsScore_lineLoss _ p)

theorem keepsScore_arriveIdleRun (s : State) (p : Port) : KeepsScore s (s.arriveIdleRun p) := by
  unfold State.arriveIdleRun
  exact .ite (.refl s) ((keepsScore_breakReception s p).trans (keepsScore_lineIdleRun _ p))

theorem keepsScore_arriveBroken (s : State) (p : Port) (i : Interruption) : KeepsScore s (s.arriveBroken p i) := by
  have ended := keepsScore_lineCharacter_ended s p
  let u := (s.lineCharacter p false).setReception p .none
  have broken : KeepsScore s (if u.receives p && ((s.lineCharacter p false).port p).reception != .passingOver
      then u.badFrame p else u) := .ite (ended.trans (keepsScore_badFrame u p)) ended
  refine broken.trans ?_
  cases i with
  | character c => exact keepsScore_arriveCharacter _ p c
  | unrecognised => exact keepsScore_arriveUnrecognised _ p
  | lossOfSignal => exact keepsScore_arriveLoss _ p

/-! ### The transmitter and the scheduler (R79 to R83, R108) -/

theorem keepsScore_attemptStart (s : State) (p : Port) : KeepsScore s (s.attemptStart p) := by
  have started (k : QueueId) : KeepsScore s (s.startAttempt p k) := by
    unfold State.startAttempt
    split
    · exact .refl s
    · exact KeepsScore.after (.ofPort fun _ => rfl) (keepsScore_setQueue s p k _)
  unfold State.attemptStart
  split
  · split
    · exact .refl s
    · exact started _
  · exact .refl s

theorem keepsScore_setSending (s : State) (p : Port) (y : Symbol) : KeepsScore s (s.setSending p y) := .ofPort fun _ => rfl

theorem keepsScore_setPhase (s : State) (p : Port) (a : Attempt) (ph : Phase) : KeepsScore s (s.setPhase p a ph) :=
  .ofPort fun _ => rfl

theorem keepsScore_frameSent (s : State) (p : Port) : KeepsScore s (s.frameSent p) := by
  unfold State.frameSent
  split
  · exact .refl s
  · split
    · exact .refl s
    · split
      · exact .refl s
      · exact keepsScore_setPhase s p _ _
      · exact (keepsScore_setPhase _ p _ _).after ((keepsScore_setSending _ p _).after (.ofPort fun _ => rfl))

theorem keepsScore_symbolAfter (s : State) (p : Port) : KeepsScore s (s.symbolAfter p) := by
  have chosen : KeepsScore s (s.nextSymbol p) := by
    unfold State.nextSymbol
    split
    · exact (keepsScore_setSending _ p _).after (.ofPort fun _ => rfl)
    · split
      · exact keepsScore_setSending s p _
      · exact .ite ((keepsScore_setSending s p _).trans (keepsScore_setPhase _ p _ _)) (keepsScore_setSending s p _)
  unfold State.symbolAfter
  split
  · exact keepsScore_setSending s p _
  · exact keepsScore_setSending s p _
  · exact keepsScore_setSending s p _
  · exact chosen
  · exact chosen

theorem keepsScore_symbolEnd (s : State) (p : Port) : KeepsScore s (s.symbolEnd p) := by
  unfold State.symbolEnd
  exact .ite (.ite (.refl s) ((keepsScore_frameSent s p).trans (keepsScore_symbolAfter _ p))) (keepsScore_symbolAfter s p)

theorem keepsScore_endAttempt (s : State) (p : Port) : KeepsScore s (s.endAttempt p) := .ofPort fun _ => rfl

theorem keepsScore_claimFor (s : State) (e : QueueEntry) (c : Tag → Claim) : KeepsScore s (s.claimFor e c) := by
  unfold State.claimFor
  split <;> exact .ofPorts rfl

/-- R80, R82: the head of a queue leaves it. -/
theorem keepsScore_headLeft (s : State) (p : Port) (k : QueueId) (e : QueueEntry) (es : List QueueEntry) :
    KeepsScore s ((s.setQueue p k es).entryLeft e) := (keepsScore_setQueue s p k es).trans (keepsScore_entryLeft _ e)

theorem keepsScore_completeAck (s : State) (p : Port) : KeepsScore s (s.completeAck p) := by
  have timed (t : State) (k : QueueId) : KeepsScore t (t.startInterval p k) := by
    cases k with
    | data q => exact .ofPort fun _ => rfl
    | g => exact .refl t
    | m => exact .refl t
  unfold State.completeAck
  split
  · exact .refl s
  · split
    · exact keepsScore_endAttempt s p
    · next a _ _ e es _ =>
      have left := (keepsScore_endAttempt s p).trans (keepsScore_headLeft _ p a.queue e es)
      exact (((left.trans (keepsScore_modPortCount _ p _)).trans (keepsScore_claimFor _ _ _)).trans (timed _ _)).trans
        (keepsScore_lowerScore _ p)

theorem keepsScore_completeFailure (s : State) (p : Port) : KeepsScore s (s.completeFailure p) := by
  unfold State.completeFailure
  split
  · exact .refl s
  · split
    · exact keepsScore_endAttempt s p
    · have failed := (keepsScore_endAttempt s p).trans
        (keepsScore_modPortCount _ p (fun c => { c with txFail := c.txFail + 1 }))
      refine failed.trans (.ite ?_ (keepsScore_setQueue _ p _ _))
      exact ((keepsScore_headLeft _ p _ _ _).trans (keepsScore_modPortCount _ p _)).trans (keepsScore_claimFor _ _ _)

theorem keepsScore_failAttempt (s : State) (p : Port) (raises : Bool) : KeepsScore s (s.failAttempt p raises) := by
  unfold State.failAttempt
  exact .ite ((keepsScore_completeFailure s p).trans (keepsScore_raiseScore _ p _)) (keepsScore_completeFailure s p)

theorem keepsScore_ackReceived (s : State) (p : Port) : KeepsScore s (s.ackReceived p) :=
  (keepsScore_arriveCharacter s p _).trans (.ite (keepsScore_completeAck _ p) (.refl _))

theorem keepsScore_nakReceived (s : State) (p : Port) (r : NakReason) : KeepsScore s (s.nakReceived p r) :=
  (keepsScore_arriveCharacter s p _).trans (.ite (keepsScore_failAttempt _ p _) (.refl _))

theorem keepsScore_strayAnswer (s : State) (p : Port) : KeepsScore s (s.strayAnswer p) :=
  .ite (.refl s) (keepsScore_arriveCharacter s p _)

theorem keepsScore_ackWindowExpiry (s : State) (p : Port) : KeepsScore s (s.ackWindowExpiry p) := by
  unfold State.ackWindowExpiry
  split
  · exact .refl s
  · split
    · exact (keepsScore_elapse s _).trans (keepsScore_failAttempt _ p _)
    · exact .refl s
    · exact .refl s

theorem keepsScore_holdReceived (s : State) (p : Port) (d : Byte) : KeepsScore s (s.holdReceived p d) :=
  (keepsScore_arriveCharacter s p _).trans (.ite (.ofPort fun _ => rfl) (.refl _))

theorem keepsScore_partnerHoldExpiry (s : State) (p : Port) : KeepsScore s (s.partnerHoldExpiry p) := by
  unfold State.partnerHoldExpiry
  split
  · exact .refl s
  · exact KeepsScore.after (.ofPort fun _ => rfl) (keepsScore_elapse s _)

theorem keepsScore_intervalExpiry (s : State) (p : Port) (q : DataQ) : KeepsScore s (s.intervalExpiry p q) := by
  unfold State.intervalExpiry
  split
  · exact .refl s
  · exact KeepsScore.after (.ofPort fun _ => rfl) (keepsScore_elapse s _)

theorem keepsScore_holdResendExpiry (s : State) (p : Port) : KeepsScore s (s.holdResendExpiry p) := by
  unfold State.holdResendExpiry
  split
  · exact .refl s
  · exact KeepsScore.after (.ofPort fun _ => rfl) ((keepsScore_elapse s _).trans (keepsScore_pushControl _ p _))

/-! ### Decisions (R7, R18, R40, R43, R54) -/

theorem keepsScore_refuse (s : State) (p : Port) (h : Header) (st : Status) (d : Half) : KeepsScore s (s.refuse p h st d) := by
  have told : KeepsScore s (s.refusalTold p h st d) :=
    KeepsScore.after (.ofFlags (onlyFlags_refusalTold s p st d)) (.ofPorts rfl)
  exact .ite (told.trans (keepsScore_offerReply _ p _)) told

theorem keepsScore_forwardRequest (s : State) (p : Port) (b : BufIx) (h : Header) (r : RuleIx) (f : Forwarding) :
    KeepsScore s (s.forwardRequest p b h r f).1 := by
  have opened (i : CallIx) (r : CallRecord) : KeepsScore s (s.openRecord i r) := .ofPorts (ports_openRecord s i r)
  unfold State.forwardRequest
  split
  · exact .refl s
  · dsimp only
    split
    · next delivered => exact ((opened _ _).trans (keepsScore_deliver delivered)).trans (keepsScore_modCount _ _)
    · exact (opened _ _).trans (keepsScore_freed_answered _ _ _ _)

theorem keepsScore_forwardNotice (s : State) (b : BufIx) (h : Header) (r : RuleIx) (f : Forwarding) :
    KeepsScore s (s.forwardNotice b h r f).1 := by
  unfold State.forwardNotice
  split
  · next delivered => exact (keepsScore_deliver delivered).trans (keepsScore_modCount _ _)
  · exact keepsScore_modCount s _

theorem keepsScore_discardedWith (s : State) (e : EventFlag) : KeepsScore s (s.discardedWith e) :=
  (keepsScore_raise s _).trans (keepsScore_modCount _ _)

theorem keepsScore_matchReply (s : State) (p : Port) (b : BufIx) (h : Header) (r : RuleIx) (len : Nat) :
    KeepsScore s (s.matchReply p b h r len).1 := by
  have delivered (s : State) (c : CallRecord) : KeepsScore s (s.deliverReply b h r c len).1 := by
    unfold State.deliverReply
    split
    · next delivered => exact (keepsScore_deliver delivered).trans (keepsScore_modCount _ _)
    · exact keepsScore_discardedWith s _
  unfold State.matchReply
  split
  · exact keepsScore_discardedWith s _
  · split
    · exact (keepsScore_withdrawn_freed s _).trans (delivered _ _)
    · exact keepsScore_discardedWith s _

theorem keepsScore_mirrorCopy (s : State) (p : Port) (b : BufIx) (r : RuleIx) (o : Byte) :
    KeepsScore s (s.mirrorCopy p b r o) := by
  rcases mirrorCopy_cases s p b r o with e | ⟨m, e⟩ | e <;> rw [e]
  · exact .refl s
  · exact (keepsScore_setQueue s m .m _).trans (.ofPorts rfl)
  · exact (keepsScore_raise s _).trans (keepsScore_modCount _ _)

theorem keepsScore_primary (s : State) (p : Port) (b : BufIx) (h : Header) (x : Settled) :
    KeepsScore s (s.primary p b h x).1 := by
  cases x with
  | unscanned => exact keepsScore_modCount s _
  | noRule => exact keepsScore_discardedWith s _
  | discard r => exact keepsScore_modCount s _
  | shortReply r => exact keepsScore_discardedWith s _
  | refusal r st d g => exact keepsScore_refuse s p h st d
  | matching r len => exact keepsScore_matchReply s p b h r len
  | forward r f =>
    by_cases request : h.kind.isRequest = true
    · rw [State.primary, if_pos request]
      exact keepsScore_forwardRequest s p b h r f
    · rw [State.primary, if_neg request]
      exact keepsScore_forwardNotice s b h r f

theorem keepsScore_applySettled (s : State) (p : Port) (b : BufIx) (h : Header) (x : Settled) :
    KeepsScore s (s.applySettled p b h x) := by
  cases rule : x.matchedRule with
  | none =>
    cases x with
    | unscanned => exact keepsScore_primary s p b h .unscanned
    | noRule => exact keepsScore_primary s p b h .noRule
    | _ => contradiction
  | some r =>
    rw [applySettled_matched rule]
    exact (keepsScore_primary s p b h x).trans (keepsScore_mirrorCopy _ p b r _)

theorem keepsScore_decisionStep (s : State) (p : Port) : KeepsScore s (s.decisionStep p) := by
  unfold State.decisionStep
  split
  · exact .refl s
  · exact (keepsScore_release _ _).after ((keepsScore_applySettled _ p _ _ _).after (.ofPort fun _ => rfl))

/-! ### Notices (R100, R167) -/

theorem keepsScore_noticeStep (s : State) (f : Flag) : KeepsScore s (s.noticeStep f) := by
  have attempted (s : State) : KeepsScore s s.noticeAttempt := by
    unfold State.noticeAttempt
    split
    · split
      · exact .refl s
      · next b _ =>
        split
        · exact .refl s
        · next u delivered =>
          have built : KeepsScore s u := (keepsScore_deliver delivered).after (.ofPorts rfl)
          have disarmed : KeepsScore u u.disarm := .ofPorts rfl
          exact (built.trans disarmed).trans (keepsScore_judge _ _ _)
    · exact .refl s
  have dropped : KeepsScore s (s.dropTrigger f) := .ofPorts rfl
  unfold State.noticeStep
  exact .ite (.ite (dropped.trans (attempted _)) dropped) (.refl s)

/-! ### The management unit (R145 to R149) -/

theorem keepsScore_takeDemand (s : State) (d : Demand) : KeepsScore s (s.takeDemand d) := by
  cases d with
  | delivered p | undeliverable p | targetPortDown p | portDown p => exact keepsScore_takeOldest s _
  | withdraw p tag => exact keepsScore_withdrawStep s p tag
  | notice f => exact keepsScore_noticeStep s f

theorem keepsScore_sendOwed (s : State) (r : Option CallRecord) : KeepsScore s (s.sendOwed r) := by
  cases r with
  | none => exact .refl s
  | some r => exact keepsScore_sendCallReply s _ _

theorem keepsScore_answer (gsn : Station) (o : Interleaving) (q : Request) (x : Executed) (r : Bool) :
    KeepsScore x.state (State.answer gsn o q x r) := by
  have interleaved : KeepsScore x.state (x.state.interleave o x.owed) := by
    unfold State.interleave
    exact .ite (.foldl keepsScore_takeDemand _ _) ((keepsScore_sendOwed _ x.owed).trans (.foldl keepsScore_takeDemand _ _))
  have written (t : State) : KeepsScore t (t.writeReply q.buffer x.payload) := .ite (.refl t) (.ofPorts rfl)
  have offered (t : State) (e : QueueEntry) : KeepsScore t (t.offerManagement q e) := by
    unfold State.offerManagement
    split
    · next delivered => exact keepsScore_deliver delivered
    · exact .ite ((keepsScore_raise t _).trans (keepsScore_reportRestart _)) (keepsScore_raise t _)
  have replied := (interleaved.trans (written _)).trans
    (offered _ (managementEntry gsn q x.status x.payload r))
  exact (keepsScore_release _ q.buffer).after (.ite (replied.trans (keepsScore_sendOwed _ x.owed)) replied)

theorem keepsScore_opSetPortState (s : State) (q : Request) : KeepsScore s (opSetPortState s q).state := by
  unfold opSetPortState
  split
  · exact .refl s
  · split
    · exact .refl s
    · split
      · exact .refl s
      · split
        · exact .refl s
        · split
          · exact keepsScore_transition s _ _
          · exact .refl s

theorem keepsScore_opCancelCall (s : State) (q : Request) : KeepsScore s (opCancelCall s q).state := by
  unfold opCancelCall
  split
  · exact .refl s
  · split
    · exact .refl s
    · split
      · exact keepsScore_withdrawn_freed s _
      · exact .refl s

theorem keepsScore_opAbortQueue (s : State) (q : Request) : KeepsScore s (opAbortQueue s q).state := by
  unfold opAbortQueue
  split
  · exact .refl s
  · split
    · exact .refl s
    · exact keepsScore_abortQueue s _ _

theorem keepsScore_opReadCounters (s : State) (q : Request) : KeepsScore s (opReadCounters s q).state := by
  unfold opReadCounters
  split
  · exact .refl s
  · split
    · exact .refl s
    · split
      · exact .ite (keepsScore_modPortCount s _ _) (.refl s)
      · exact .ite (keepsScore_modCount s _) (.refl s)

theorem keepsScore_opWriteGateway (s : State) (q : Request) : KeepsScore s (opWriteGateway s q).state := by
  unfold opWriteGateway
  split
  · exact .refl s
  · split
    · exact .refl s
    · next r _ =>
      split
      · exact .refl s
      · have marks : KeepsScore s (judgeMarks s r) :=
          (keepsScore_judge _ _ _).after ((keepsScore_judge _ _ _).after (.ofPorts rfl))
        have triggers : KeepsScore s (takeNewTriggers s (judgeMarks s r)) := marks.trans (.foldl keepsScore_noticeStep _ _)
        show KeepsScore s (leaveMonitor _ _ _)
        unfold leaveMonitor
        split
        · exact triggers
        · exact .ite triggers (triggers.trans (keepsScore_abortQueue _ _ _))

/-- The writes of the other tables reach no port's own items. -/
theorem ports_opWriteRule (s : State) (q : Request) : (opWriteRule s q).state.ports = s.ports := by
  unfold opWriteRule
  split <;> rfl

theorem ports_opWriteService (s : State) (q : Request) : (opWriteService s q).state.ports = s.ports := by
  unfold opWriteService
  split
  · rfl
  · split
    · rfl
    · split
      · rfl
      · split <;> rfl

theorem ports_opWriteQueue (s : State) (q : Request) : (opWriteQueue s q).state.ports = s.ports := by
  unfold opWriteQueue
  split
  · split <;> rfl
  · rfl

theorem ports_opClearTable (s : State) (q : Request) : (opClearTable s q).state.ports = s.ports := by
  unfold opClearTable
  dsimp only
  split
  · split
    · rfl
    · exact State.setTables_ports s _
  · split
    · rfl
    · exact State.setTables_ports s _
  all_goals rfl

theorem keepsScore_execute (op : Operation) (s : State) (q : Request) : KeepsScore s (execute op s q).state := by
  cases op with
  | identify | readState => exact .refl s
  | restart => exact .ofPorts rfl
  | readTable => exact .ofPorts (congrArg State.ports (state_opReadTable s q))
  | readCall => exact .ofPorts (congrArg State.ports (state_opReadCall s q))
  | probe => exact .ofPorts (congrArg State.ports (state_opProbe s q))
  | writeRule => exact .ofPorts (ports_opWriteRule s q)
  | writeService => exact .ofPorts (ports_opWriteService s q)
  | writePort => exact .ofPorts (ports_opWritePort s q)
  | writeQueue => exact .ofPorts (ports_opWriteQueue s q)
  | writeGateway => exact keepsScore_opWriteGateway s q
  | clearTable => exact .ofPorts (ports_opClearTable s q)
  | setPortState => exact keepsScore_opSetPortState s q
  | abortQueue => exact keepsScore_opAbortQueue s q
  | cancelCall => exact keepsScore_opCancelCall s q
  | readEvents => exact (KeepsScore.foldl keepsScore_noticeStep s.wires.triggers s).trans (.ofPorts rfl)
  | readCounters => exact keepsScore_opReadCounters s q

theorem keepsScore_manage (s : State) (o : Interleaving) : KeepsScore s (s.manage o) := by
  have dropped : KeepsScore s s.dropHead := .ofPorts rfl
  unfold State.manage
  split
  · exact .refl s
  · exact (dropped.trans (keepsScore_modCount _ _)).trans (keepsScore_release _ _)
  · exact (dropped.trans (keepsScore_raise _ _)).trans (keepsScore_release _ _)
  · exact (dropped.trans (keepsScore_raise _ _)).trans (keepsScore_answer _ o _ (refusedWith _ _) _)
  · exact dropped.trans (keepsScore_answer _ o _ (refusedWith _ _) _)
  · exact (dropped.trans (keepsScore_execute _ _ _)).trans (keepsScore_answer _ o _ _ _)

theorem keepsScore_takeOf (op : Operation) (o : Interleaving) (s : State) : KeepsScore s (State.takeOf op o s) := by
  unfold State.takeOf
  split
  · exact .ite (keepsScore_manage s o) (.refl s)
  all_goals exact .refl s

/-! ### Resets and the statement about every step -/

theorem scoreTellsIsolation_atReset (gsn : Station) (bringup : Port) (reception : Port → Reception) (pending : List Instr) :
    ScoreTellsIsolation (State.atReset gsn bringup reception pending) := by
  intro p
  have port : (State.atReset gsn bringup reception pending).port p = PortSt.reset (bringup == p) (reception p) := by
    fin_cases p <;> rfl
  rw [port]
  cases bringup == p <;> simp [PortSt.reset, Config.scoreCap]

theorem keepsScore_restartAct (s : State) : KeepsScore s s.restartAct := by
  unfold State.restartAct
  split
  · exact fun _ => scoreTellsIsolation_atReset _ _ _ _
  · exact .refl s
  · exact .refl s

theorem keepsScore_assertReset (s : State) : KeepsScore s s.assertReset :=
  .ofStanding fun p => by rw [show s.assertReset.port p = portAsserted (s.port p) from look_map _ _ _]; rfl

section
variable {s t : State} (h : ScoreTellsIsolation s)
include h

/-- R173: a command that is taken only while the reset pin is released. -/
theorem scoreTellsIsolation_running {f : State → State} (k : ∀ s, KeepsScore s (f s)) (ran : running f s = .next t) :
    ScoreTellsIsolation t := by
  unfold running at ran
  split at ran
  · exact Host.Outcome.next.inj ran ▸ h
  · exact Host.Outcome.next.inj ran ▸ k s h

/-- Every command keeps the rule of the error score. -/
theorem scoreTellsIsolation_exec {c : Instr} (ran : exec c s = .next t) : ScoreTellsIsolation t := by
  have taken (op : Operation) (o : Interleaving) (ran : running (State.takeOf op o) s = .next t) : ScoreTellsIsolation t :=
    scoreTellsIsolation_running h (keepsScore_takeOf op o) ran
  cases c with
  | resetAssert => exact Host.Outcome.next.inj ran ▸ keepsScore_assertReset s h
  | resetRelease bringup stn => exact Host.Outcome.next.inj ran ▸ scoreTellsIsolation_atReset _ _ _ _
  | restartAct => exact scoreTellsIsolation_running h keepsScore_restartAct ran
  | frameReceived p chars => exact scoreTellsIsolation_running h (keepsScore_arriveFrame · p chars) ran
  | brokenFrame p i => exact scoreTellsIsolation_running h (fun s => .ite (keepsScore_arriveBroken s p i) (.refl s)) ran
  | ackReceived p => exact scoreTellsIsolation_running h (keepsScore_ackReceived · p) ran
  | nakReceived p r => exact scoreTellsIsolation_running h (keepsScore_nakReceived · p r) ran
  | ackWindowExpiry p => exact scoreTellsIsolation_running h (keepsScore_ackWindowExpiry · p) ran
  | strayAnswer p a => exact scoreTellsIsolation_running h (keepsScore_strayAnswer · p) ran
  | holdReceived p d => exact scoreTellsIsolation_running h (keepsScore_holdReceived · p d) ran
  | partnerHoldExpiry p => exact scoreTellsIsolation_running h (keepsScore_partnerHoldExpiry · p) ran
  | idleRun p => exact scoreTellsIsolation_running h (keepsScore_arriveIdleRun · p) ran
  | lossOfSignal p => exact scoreTellsIsolation_running h (keepsScore_arriveLoss · p) ran
  | unrecognisedCharacter p => exact scoreTellsIsolation_running h (keepsScore_arriveUnrecognised · p) ran
  | characterRecognised p c => exact scoreTellsIsolation_running h (keepsScore_arriveCharacter · p c) ran
  | transmitterSymbolEnd p => exact scoreTellsIsolation_running h (keepsScore_symbolEnd · p) ran
  | frameSent p => exact scoreTellsIsolation_running h (keepsScore_frameSent · p) ran
  | attemptStart p => exact scoreTellsIsolation_running h (keepsScore_attemptStart · p) ran
  | intervalTimerExpiry p q => exact scoreTellsIsolation_running h (keepsScore_intervalExpiry · p q) ran
  | holdResendExpiry p => exact scoreTellsIsolation_running h (keepsScore_holdResendExpiry · p) ran
  | decision p => exact scoreTellsIsolation_running h (keepsScore_decisionStep · p) ran
  | deliveredClaim p | undeliverableClaim p | targetPortDownClaim p | portDownClaim p =>
    exact scoreTellsIsolation_running h (keepsScore_takeOldest · _) ran
  | callExpiry i => exact scoreTellsIsolation_running h (keepsScore_callExpiry · i) ran
  | withdraw p tag => exact scoreTellsIsolation_running h (keepsScore_withdrawStep · p tag) ran
  | noticeAttempt f => exact scoreTellsIsolation_running h (keepsScore_noticeStep · f) ran
  | managementTake o => exact scoreTellsIsolation_running h (keepsScore_manage · o) ran
  | identify o => exact taken .identify o ran
  | readTable o => exact taken .readTable o ran
  | writeTableRule o => exact taken .writeRule o ran
  | writeTableService o => exact taken .writeService o ran
  | writeTablePort o => exact taken .writePort o ran
  | writeTableQueue o => exact taken .writeQueue o ran
  | writeTableGateway o => exact taken .writeGateway o ran
  | clearTable o => exact taken .clearTable o ran
  | readState o => exact taken .readState o ran
  | setPortState o => exact taken .setPortState o ran
  | abortQueue o => exact taken .abortQueue o ran
  | cancelCall o => exact taken .cancelCall o ran
  | readCall o => exact taken .readCall o ran
  | readEvents o => exact taken .readEvents o ran
  | readCounters o => exact taken .readCounters o ran
  | probe o => exact taken .probe o ran
  | restart o => exact taken .restart o ran

end

end Sys2Proof.Machine

open Sys2Proof Sys2Proof.Machine

/-- Settles O55: a step on an empty queue leaves every port's standing, and every command keeps the rule of the error score. -/
theorem scoreKeepsTellingIsolation : Obligations.ScoreKeepsTellingIsolation := by
  intro s t h stepped
  unfold step at stepped
  split at stepped
  · obtain rfl := Host.Outcome.next.inj stepped
    exact KeepsScore.ite (.refl s) (keepsScore_elapse s 1) h
  · next c cs _ =>
    have h' : ScoreTellsIsolation { s with pending := cs } := h
    exact scoreTellsIsolation_exec h' stepped
end

section
/-! The transmitter (R108, R109, R119, R177): the end of a symbol and of a FRAME, the choice of the next symbol, and the statement
about it. -/

namespace Sys2Proof.Machine
open Sys2Proof

/-- A change of a port to what it was is no change. -/
theorem modPort_of_fixed {s : State} {p : Port} {f : PortSt → PortSt} (same : f (s.port p) = s.port p) : s.modPort p f = s := by
  have same : f (look s.ports p) = look s.ports p := same
  rw [State.modPort, same, put_look]

/-! ### The end of a FRAME (R119, R177) -/

/-- R119: an attempt whose FRAME was being sent has its ack window running; every other is as it was. -/
def attemptEnded (ackWindow : Nat) (a : Attempt) : Attempt :=
  if a.phase = .sending then { a with phase := .window ackWindow } else a

/-- The FRAME of port p's attempt, if it was being sent, has ended. -/
def State.frameEnded (s : State) (p : Port) : State :=
  s.modPort p (fun x => { x with attempt := x.attempt.map (attemptEnded (s.portRec p).ackWindow.toNat) })

theorem attemptEnded_of_sending {a : Attempt} (sending : a.phase = .sending) (ackWindow : Nat) :
    attemptEnded ackWindow a = { a with phase := .window ackWindow } := if_pos sending

theorem attemptEnded_of_waiting {a : Attempt} (waiting : a.phase = .waiting) (ackWindow : Nat) : attemptEnded ackWindow a = a :=
  if_neg (by simp [waiting])

theorem frameUnderWay_iff (s : State) (p : Port) :
    s.frameUnderWay p = true ↔ ∃ a, (s.port p).attempt = some a ∧ a.phase = .sending := by
  unfold State.frameUnderWay
  cases (s.port p).attempt <;> simp

section
variable {s : State} {p : Port}

/-- R177: once the restart act is due no FRAME ends. -/
theorem frameSent_of_due (due : s.awaitsRestartAct) : s.frameSent p = s := if_pos ((restartDue_iff s).mpr due)

/-- R119: the end character of an attempt's FRAME starts its ack window. -/
theorem frameSent_of_sending {a : Attempt} (idle : ¬ s.awaitsRestartAct) (trying : (s.port p).attempt = some a)
    (sending : a.phase = .sending) : s.frameSent p = s.setPhase p a (.window (s.portRec p).ackWindow.toNat) := by
  rw [State.frameSent, if_neg (mt (restartDue_iff s).mp idle), trying]
  dsimp only
  rw [sending]

/-- Log 6: a FRAME that has not begun is sent behind the pending control symbols. -/
theorem frameSent_of_waiting {a : Attempt} (idle : ¬ s.awaitsRestartAct) (trying : (s.port p).attempt = some a)
    (waiting : a.phase = .waiting) : s.frameSent p = ((s.modPort p (fun x => { x with control := [] })).setSending p
      (.frame a.frame)).setPhase p a (.window (s.portRec p).ackWindow.toNat) := by
  rw [State.frameSent, if_neg (mt (restartDue_iff s).mp idle), trying]
  dsimp only
  rw [waiting]

theorem frameEnded_of_sending {a : Attempt} (trying : (s.port p).attempt = some a) (sending : a.phase = .sending) :
    s.frameEnded p = s.setPhase p a (.window (s.portRec p).ackWindow.toNat) := by
  have trying : (look s.ports p).attempt = some a := trying
  simp [State.frameEnded, State.setPhase, State.modPort, trying, attemptEnded_of_sending sending]

theorem frameEnded_of_not_underWay (still : ¬ s.frameUnderWay p = true) : s.frameEnded p = s := by
  have unended : (s.port p).attempt.map (attemptEnded (s.portRec p).ackWindow.toNat) = (s.port p).attempt := by
    rw [frameUnderWay_iff] at still
    cases trying : (s.port p).attempt with
    | none => rfl
    | some a => exact congrArg some (if_neg fun sending => still ⟨a, trying, sending⟩)
  exact modPort_of_fixed (by rw [unended])

/-- R108, R119: a symbol ends, with the FRAME it may belong to, and the next one is chosen. -/
theorem symbolEnd_eq (ends : s.awaitsRestartAct → ∀ a, (s.port p).attempt = some a → a.phase ≠ .sending) :
    s.symbolEnd p = (s.frameEnded p).symbolAfter p := by
  unfold State.symbolEnd
  split
  · next underWay =>
    obtain ⟨a, trying, sending⟩ := (frameUnderWay_iff s p).mp underWay
    have idle : ¬ s.awaitsRestartAct := fun due => ends due a trying sending
    rw [if_neg (mt (restartDue_iff s).mp idle), frameSent_of_sending idle trying sending, frameEnded_of_sending trying sending]
  · next still => rw [frameEnded_of_not_underWay still]

theorem symbolEnd_of_due {a : Attempt} (due : s.awaitsRestartAct) (trying : (s.port p).attempt = some a)
    (sending : a.phase = .sending) : s.symbolEnd p = s := by
  rw [State.symbolEnd, if_pos ((frameUnderWay_iff s p).mpr ⟨a, trying, sending⟩), if_pos ((restartDue_iff s).mpr due)]

theorem port_frameEnded : (s.frameEnded p).port p =
    { s.port p with attempt := (s.port p).attempt.map (attemptEnded (s.portRec p).ackWindow.toNat) } :=
  State.port_modPort_self _ _ _

/-! ### The next symbol (R108, R109) -/

theorem symbolAfter_outOfService (outside : (s.port p).state.inService = false) :
    s.symbolAfter p = s.setSending p (if (s.port p).state = .disabled then .silent else .idleMark) := by
  unfold State.symbolAfter
  cases state : (s.port p).state <;> simp [state, PortState.inService] at outside ⊢

theorem symbolAfter_inService (serves : (s.port p).state.inService = true) : s.symbolAfter p = s.nextSymbol p := by
  unfold State.symbolAfter
  cases state : (s.port p).state <;> simp [state, PortState.inService] at serves ⊢

theorem nextSymbol_control {c : Control} {cs : List Control} (pending : (s.port p).control = c :: cs) :
    s.nextSymbol p = (s.modPort p (fun x => { x with control := cs })).setSending p (.control c) := by
  rw [State.nextSymbol, pending]

theorem nextSymbol_frame {a : Attempt} (idle : ¬ s.awaitsRestartAct) (clear : (s.port p).control = [])
    (trying : (s.port p).attempt = some a) (waiting : a.phase = .waiting) :
    s.nextSymbol p = (s.setSending p (.frame a.frame)).setPhase p a .sending := by
  have undue : s.restartDue = false := by simpa using mt (restartDue_iff s).mp idle
  rw [State.nextSymbol, clear]
  dsimp only
  rw [trying]
  exact if_pos ⟨waiting, undue⟩

theorem nextSymbol_idle (clear : (s.port p).control = [])
    (unsent : ∀ a, (s.port p).attempt = some a → a.phase = .waiting → s.awaitsRestartAct) :
    s.nextSymbol p = s.setSending p .idleMark := by
  rw [State.nextSymbol, clear]
  dsimp only
  split
  · rfl
  · next a trying =>
    refine if_neg fun ⟨waiting, undue⟩ => ?_
    rw [(restartDue_iff s).mpr (unsent a trying waiting)] at undue
    exact nomatch undue

end

/-! ### What the transmitter leaves of a port -/

theorem port_setSending (s : State) (p : Port) (y : Symbol) : (s.setSending p y).port p = { s.port p with sending := y } :=
  State.port_modPort_self _ _ _

theorem port_setPhase (s : State) (p : Port) (a : Attempt) (ph : Phase) :
    (s.setPhase p a ph).port p = { s.port p with attempt := some { a with phase := ph } } := State.port_modPort_self _ _ _

/-- A change of a port that leaves its lists of entries leaves its queues. -/
theorem queue_of_lists {s t : State} {p : Port} (data : (t.port p).data = (s.port p).data) (g : (t.port p).gq = (s.port p).gq)
    (m : (t.port p).mq = (s.port p).mq) (k : QueueId) : t.queue p k = s.queue p k := by
  cases k with
  | data d => exact congrArg (look · d) data
  | g => exact g
  | m => exact m

/-- R75, R177: no attempt starts once the restart act is due. -/
theorem attemptStart_of_due {s : State} (due : s.awaitsRestartAct) (p : Port) : s.attemptStart p = s := by
  refine if_neg ?_
  simp [State.mayStart, (restartDue_iff s).mpr due]

end Sys2Proof.Machine

open Sys2Proof Sys2Proof.Machine

/-- Settles O19: the FRAME that was being sent ends with its symbol, and the next symbol is chosen behind it. -/
theorem transmitterChoosesNextSymbol : Obligations.TransmitterChoosesNextSymbol := by
  unfold Obligations.TransmitterChoosesNextSymbol
  intro mayEnd
  have ended {s : State} {p : Port} (run : s.resetAsserted = false) (ends : mayEnd s p) :
      exec (.transmitterSymbolEnd p) s = .next ((s.frameEnded p).symbolAfter p) := by
    rw [← symbolEnd_eq ends]
    exact running_of_notReset run (·.symbolEnd p)
  refine ⟨fun s p run outside ends => ⟨_, ended run ends, ?_⟩,
    fun s p c cs run serves ends pending => ⟨_, ended run ends, ?_⟩,
    fun s p a run serves idle clear trying waiting => ⟨_, ended run fun due => absurd due idle, ?_⟩,
    fun s p run serves ends clear unsent => ⟨_, ended run ends, ?_⟩,
    fun s p a run idle trying begun => ⟨_, running_of_notReset run (·.frameSent p), ?_⟩,
    fun s p due => ⟨running_of_fixed (f := (·.attemptStart p)) (attemptStart_of_due due p),
      running_of_fixed (f := (·.frameSent p)) (frameSent_of_due due),
      fun a trying sending => running_of_fixed (f := (·.symbolEnd p)) (symbolEnd_of_due due trying sending)⟩⟩
  · rw [symbolAfter_outOfService (by rwa [port_frameEnded]), port_setSending, port_frameEnded]
  · rw [symbolAfter_inService (by rwa [port_frameEnded]), nextSymbol_control (by rw [port_frameEnded]; exact pending)]
    have port : (((s.frameEnded p).modPort p (fun x => { x with control := cs })).setSending p (.control c)).port p
        = { (s.frameEnded p).port p with control := cs, sending := .control c } := by
      rw [port_setSending, State.port_modPort_self]
    refine ⟨?_, ?_, queue_of_lists ?_ ?_ ?_⟩ <;> rw [port, port_frameEnded]
  · have trying' : ((s.frameEnded p).port p).attempt = some a := by
      rw [port_frameEnded, trying, Option.map_some, attemptEnded_of_waiting waiting]
    rw [symbolAfter_inService (by rwa [port_frameEnded]),
      nextSymbol_frame (s := s.frameEnded p) idle (by rw [port_frameEnded]; exact clear) trying' waiting]
    refine ⟨?_, ?_, queue_of_lists ?_ ?_ ?_⟩ <;> rw [port_setPhase, port_setSending, port_frameEnded]
  · have unsent' : ∀ a, ((s.frameEnded p).port p).attempt = some a → a.phase = .waiting → (s.frameEnded p).awaitsRestartAct := by
      intro a trying waiting
      rw [port_frameEnded, Option.map_eq_some_iff] at trying
      obtain ⟨a, trying, rfl⟩ := trying
      unfold attemptEnded at waiting
      split at waiting
      · exact nomatch waiting
      · exact unsent a trying waiting
    rw [symbolAfter_inService (by rwa [port_frameEnded]), nextSymbol_idle (by rw [port_frameEnded]; exact clear) unsent',
      port_setSending, port_frameEnded]
    refine ⟨rfl, fun a trying sending => ?_, fun a trying waiting => ?_⟩
    · rw [trying, Option.map_some, attemptEnded_of_sending sending]
    · rw [trying, Option.map_some, attemptEnded_of_waiting waiting]
  · obtain waiting | sending := begun
    · rw [frameSent_of_waiting idle trying waiting]
      refine ⟨?_, queue_of_lists ?_ ?_ ?_, ?_⟩ <;> rw [port_setPhase, port_setSending, State.port_modPort_self]
    · rw [frameSent_of_sending idle trying sending]
      refine ⟨?_, queue_of_lists ?_ ?_ ?_, ?_⟩ <;> rw [port_setPhase]
end

section
/-! Leaving service in full (R88, R128 to R130, R135): the demands settled before it, the entries it flushes, and what it makes of
the port. -/

namespace Sys2Proof.Machine
open Sys2Proof

/-! ### The claims of an earlier leaving, settled first (R64, R67, R128) -/

/-- From s to t calls were ended: the port's own items changed in their G queues alone, and no buffer, management entry or waiting
claim changed. -/
structure EndsCalls (s t : State) : Prop where
  ports : ∀ q, t.port q = { s.port q with gq := (t.port q).gq }
  pool : t.pool = s.pool
  mgmt : t.mgmt = s.mgmt
  claims : t.wires.claims = s.wires.claims
  flagged : ∀ f, s.flagged f → t.flagged f

namespace EndsCalls

theorem refl (s : State) : EndsCalls s s := ⟨fun _ => rfl, rfl, rfl, rfl, fun _ set => set⟩

theorem trans {s t u : State} (h : EndsCalls s t) (k : EndsCalls t u) : EndsCalls s u where
  ports := fun q => by rw [k.ports q, h.ports q]
  pool := k.pool.trans h.pool
  mgmt := k.mgmt.trans h.mgmt
  claims := k.claims.trans h.claims
  flagged := fun f set => k.flagged f (h.flagged f set)

theorem ite {s t u : State} {c : Prop} [Decidable c] (h : EndsCalls s t) (k : EndsCalls s u) :
    EndsCalls s (if c then t else u) := by
  split
  · exact h
  · exact k

theorem foldl {α : Type} {f : State → α → State} (h : ∀ s a, EndsCalls s (f s a)) (l : List α) (s : State) :
    EndsCalls s (l.foldl f s) := by
  induction l generalizing s with
  | nil => exact refl s
  | cons a l ih => exact (h s a).trans (ih (f s a))

theorem ofFlags {s t : State} (h : OnlyFlags s t) : EndsCalls s t :=
  ⟨fun q => by rw [h.port], h.pool, h.mgmt, h.claims, h.flagged⟩

/-- A change of the call table and of the withdraws on their way. -/
theorem ofCalls {s t : State} (ports : t.ports = s.ports) (pool : t.pool = s.pool) (mgmt : t.mgmt = s.mgmt)
    (claims : t.wires.claims = s.wires.claims) (events : t.events = s.events) : EndsCalls s t :=
  ⟨fun q => by rw [port_of_ports ports], pool, mgmt, claims, fun f set => by rw [State.flagged, State.flagSet, events]; exact set⟩

end EndsCalls

theorem endsCalls_freeRecord (s : State) (i : CallIx) : EndsCalls s (s.freeRecord i) := by
  by_cases used : (s.record i).inUse = true
  · exact .trans (t := s.freeing i) (.ofCalls rfl rfl rfl rfl rfl) (.ofFlags (onlyFlags_freeRecord used))
  · rw [State.freeRecord, if_neg used]
    exact .refl s

theorem port_setQueue_g (s : State) (p q : Port) (es : List QueueEntry) :
    (s.setQueue p .g es).port q = { s.port q with gq := ((s.setQueue p .g es).port q).gq } := by
  rw [State.setQueue, State.port_modPort]
  split
  · next named =>
    rw [← named]
    rfl
  · rfl

/-- R66, R67: a call reply joins a G queue and names no buffer. -/
theorem endsCalls_sendCallReply (s : State) (r : CallRecord) (st : Status) : EndsCalls s (s.sendCallReply r st) := by
  unfold State.sendCallReply State.offerReply
  split
  · next delivered =>
    obtain ⟨-, rfl⟩ := deliver_eq_some.mp delivered
    exact ⟨fun q => port_setQueue_g s _ q _, rfl, rfl, rfl, fun _ set => set⟩
  · exact .ofFlags (onlyFlags_raise s _)

theorem endsCalls_freed_answered (s : State) (i : CallIx) (r : CallRecord) (st : Status) :
    EndsCalls s ((s.freeRecord i).sendCallReply r st) := (endsCalls_freeRecord s i).trans (endsCalls_sendCallReply _ r st)

theorem endsCalls_withdrawn_freed (s : State) (i : CallIx) : EndsCalls s ((s.withdrawIfQueued i).freeRecord i) := by
  rw [withdrawIfQueued_eq]
  exact .trans (t := s.withdrawn i) (.ofCalls rfl rfl rfl rfl rfl) (endsCalls_freeRecord _ i)

theorem endsCalls_portDownRecord (p : Port) (s : State) (i : CallIx) : EndsCalls s (s.portDownRecord p i) := by
  unfold State.portDownRecord
  exact .ite (endsCalls_freed_answered s i _ _) (.ite (endsCalls_withdrawn_freed s i) (.ite (endsCalls_freeRecord s i) (.refl s)))

theorem endsCalls_takeClaim (s : State) (c : Claim) : EndsCalls s (s.takeClaim c) := by
  cases c with
  | delivered p tag =>
    show EndsCalls s (s.takeDelivered tag)
    unfold State.takeDelivered
    split
    · exact .refl s
    · exact .ite (.ofCalls rfl rfl rfl rfl rfl) (.refl s)
  | undeliverable p tag abort =>
    show EndsCalls s (s.takeUndeliverable tag abort)
    unfold State.takeUndeliverable
    split
    · exact .refl s
    · exact .ite (.ite (endsCalls_freed_answered s _ _ _)
        ((endsCalls_freed_answered s _ _ _).trans (.ofFlags (onlyFlags_raise _ _)))) (.refl s)
  | targetPortDown p tag =>
    show EndsCalls s (s.takeTargetPortDown p tag)
    unfold State.takeTargetPortDown
    split
    · exact .refl s
    · exact endsCalls_portDownRecord p s _
  | portDown p => exact .foldl (endsCalls_portDownRecord p) _ s

/-- The demands of a port's earlier leaving are off their way. -/
def State.leavingTaken (s : State) (p : Port) : State :=
  { s with wires := { s.wires with claims := s.wires.claims.filter (fun c => !c.isLeaving p) } }

theorem endsCalls_settleDemands (s : State) (p : Port) : EndsCalls (s.leavingTaken p) (s.settleDemands p) :=
  .foldl endsCalls_takeClaim _ _

/-- R128: where no demand of an earlier leaving waits there is none to settle. -/
theorem settleDemands_of_none {s : State} {p : Port} (none : ∀ d ∈ s.wires.claims, d.isLeaving p = false) :
    s.settleDemands p = s := by
  have taken : s.wires.claims.filter (Claim.isLeaving p) = [] := by simpa using none
  have left : s.wires.claims.filter (fun c => !c.isLeaving p) = s.wires.claims := by simpa using none
  rw [State.settleDemands, taken, left]
  rfl

/-! ### Holds released one after the other (R83, R94, R106) -/

/-- From s to t holds were released and RESTART may have been reported: own HOLDING of ports in service was judged, and besides
flags nothing else changed that a port's leaving reads. -/
structure OnlyReleases (s t : State) : Prop where
  ports : ∀ q, SameButHold (s.port q) (t.port q)
  outside : ∀ q, (s.port q).state.inService = false → t.port q = s.port q
  falls : ∀ q, (s.port q).ownHold ≠ none → (t.port q).ownHold ≠ none ∨ t.flagged (.fall (.holding q))
  mgmtQueue : t.mgmt.queue = s.mgmt.queue
  reported : ∀ r, s.mgmt.restart = .reported r → t.mgmt.restart = .reported r
  flagged : ∀ f, s.flagged f → t.flagged f

namespace OnlyReleases

theorem refl (s : State) : OnlyReleases s s :=
  ⟨fun _ => .refl _, fun _ _ => rfl, fun _ holds => .inl holds, rfl, fun _ h => h, fun _ h => h⟩

theorem state {s t : State} (h : OnlyReleases s t) (q : Port) : (t.port q).state = (s.port q).state := by
  rw [(h.ports q).1]

theorem trans {s t u : State} (h : OnlyReleases s t) (k : OnlyReleases t u) : OnlyReleases s u where
  ports := fun q => (h.ports q).trans (k.ports q)
  outside := fun q outside => (k.outside q (by rwa [h.state])).trans (h.outside q outside)
  falls := fun q holds => (h.falls q holds).elim (k.falls q) fun fell => .inr (k.flagged _ fell)
  mgmtQueue := k.mgmtQueue.trans h.mgmtQueue
  reported := fun r told => k.reported r (h.reported r told)
  flagged := fun f set => k.flagged f (h.flagged f set)

theorem foldl {α : Type} {f : State → α → State} (h : ∀ s a, OnlyReleases s (f s a)) (l : List α) (s : State) :
    OnlyReleases s (l.foldl f s) := by
  induction l generalizing s with
  | nil => exact refl s
  | cons a l ih => exact (h s a).trans (ih (f s a))

end OnlyReleases

theorem onlyReleases_release (s : State) (b : BufIx) : OnlyReleases s (s.release b) := by
  have holding := onlyHolding_release s b
  refine ⟨holding.ports, fun q outside => ?_, fun q holds => ?_, congrArg Mgmt.queue holding.mgmt,
    fun r told => by rw [holding.mgmt, told], holding.flagged⟩
  · refine port_release_of_not_judged fun ⟨_, _, _, _, serves⟩ => ?_
    simp [outside] at serves
  · by_cases judged : s.releaseJudges (some b) q
    · obtain ⟨_, ends, stays⟩ := holdJudged_release judged
      by_cases drained : s.holdEnds q (s.occupancy q - 1)
      · exact .inr (ends drained).2.2
      · rw [(stays (fun begins => holds begins.1) drained).1]
        exact .inl holds
    · rw [port_release_of_not_judged judged]
      exact .inl holds

theorem onlyReleases_releaseOpt (s : State) (b : Option BufIx) : OnlyReleases s (s.releaseOpt b) := by
  cases b with
  | none => exact .refl s
  | some b => exact onlyReleases_release s b

theorem restart_reportRestart {s : State} {r : Port} (pending : s.mgmt.restart = .awaiting r) :
    s.reportRestart.mgmt.restart = .reported r := by
  rw [State.reportRestart, pending]

theorem onlyReleases_reportRestart (s : State) : OnlyReleases s s.reportRestart := by
  have same := OnlyReleases.refl s
  unfold State.reportRestart
  split
  · next pending =>
    refine ⟨same.ports, same.outside, same.falls, rfl, fun r told => ?_, same.flagged⟩
    exact nomatch pending.symm.trans told
  · exact same
  · exact same

theorem onlyReleases_entryLeft (s : State) (e : QueueEntry) : OnlyReleases s (s.entryLeft e) := by
  refine .trans ?_ (onlyReleases_releaseOpt _ e.buffer)
  split
  · exact onlyReleases_reportRestart s
  · exact .refl s

theorem holds_release (s : State) (b c : BufIx) :
    ((s.release b).buffer c).holds = (s.buffer c).holds - (if b = c then 1 else 0) := by
  rw [buffer_release]
  split
  · next same => rw [same]
  · rfl

theorem holds_entryLeft (s : State) (e : QueueEntry) (c : BufIx) :
    ((s.entryLeft e).buffer c).holds = (s.buffer c).holds - (if e.buffer = some c then 1 else 0) := by
  have reported : (if e.restartReply then s.reportRestart else s).buffer c = s.buffer c := by
    unfold State.reportRestart
    split
    · split <;> rfl
    · rfl
  unfold State.entryLeft
  cases named : e.buffer with
  | none => simp [State.releaseOpt, reported]
  | some b => simp [State.releaseOpt, holds_release, reported]

/-- R83, R160: the entry that carries a RESTART reply is reported as it leaves. -/
theorem restart_entryLeft {s : State} {e : QueueEntry} {r : Port} (carries : e.restartReply = true)
    (pending : s.mgmt.restart = .awaiting r) : (s.entryLeft e).mgmt.restart = .reported r := by
  rw [State.entryLeft, if_pos carries]
  exact (onlyReleases_releaseOpt _ _).reported r (restart_reportRestart pending)

theorem claims_entryLeft (s : State) (e : QueueEntry) : (s.entryLeft e).wires.claims = s.wires.claims := by
  have released (t : State) (b : Option BufIx) : (t.releaseOpt b).wires.claims = t.wires.claims := by
    cases b with
    | none => rfl
    | some b => exact (onlyHolding_release t b).claims
  rw [State.entryLeft, released]
  unfold State.reportRestart
  split
  · split <;> rfl
  · rfl

/-- An entry that carries no RESTART reply is not reported. -/
theorem restart_entryLeft_plain {s : State} {e : QueueEntry} (plain : e.restartReply = false) :
    (s.entryLeft e).mgmt.restart = s.mgmt.restart := by
  have released (b : Option BufIx) : (s.releaseOpt b).mgmt = s.mgmt := by
    cases b with
    | none => rfl
    | some b => exact (onlyHolding_release s b).mgmt
  simp [State.entryLeft, plain, released]

/-! ### The flush of a port (R83, R88) -/

/-- R83, R88: from s to t the entries of a list left: their holds were released, and a RESTART reply among them was reported. -/
structure EntriesLeft (es : List QueueEntry) (s t : State) : Prop extends OnlyReleases s t where
  holds : ∀ b, (t.buffer b).holds = (s.buffer b).holds - es.countP (fun e => e.buffer == some b)
  restart : ∀ r, (∃ e ∈ es, e.restartReply = true) → s.mgmt.restart = .awaiting r → t.mgmt.restart = .reported r
  plain : (∀ e ∈ es, e.restartReply = false) → t.mgmt.restart = s.mgmt.restart

theorem entriesLeft_nil (s : State) : EntriesLeft [] s s :=
  ⟨.refl s, fun _ => rfl, fun _ carries => by simp at carries, fun _ => rfl⟩

theorem entriesLeft_entryLeft (s : State) (e : QueueEntry) : EntriesLeft [e] s (s.entryLeft e) where
  toOnlyReleases := onlyReleases_entryLeft s e
  holds := fun b => by simp [holds_entryLeft, List.countP_cons]
  restart := fun r carries pending => restart_entryLeft (by simpa using carries) pending
  plain := fun plain => restart_entryLeft_plain (plain e (by simp))

theorem EntriesLeft.append {es fs : List QueueEntry} {s t u : State} (h : EntriesLeft es s t) (k : EntriesLeft fs t u) :
    EntriesLeft (es ++ fs) s u where
  toOnlyReleases := h.toOnlyReleases.trans k.toOnlyReleases
  holds := fun b => by rw [k.holds, h.holds, List.countP_append, Nat.sub_sub]
  restart := fun r ⟨e, mem, carries⟩ pending => by
    by_cases first : ∃ e ∈ es, e.restartReply = true
    · exact k.reported r (h.restart r first pending)
    · have plain : ∀ e ∈ es, e.restartReply = false := fun e mem => by simpa using fun carries => first ⟨e, mem, carries⟩
      have second : e ∈ fs := (List.mem_append.mp mem).resolve_left fun mem => first ⟨e, mem, carries⟩
      exact k.restart r ⟨e, second, carries⟩ ((h.plain plain).trans pending)
  plain := fun plain => (k.plain fun e mem => plain e (by simp [mem])).trans (h.plain fun e mem => plain e (by simp [mem]))

theorem entriesLeft_flushEntry (p : Port) (s : State) (e : QueueEntry) : EntriesLeft [e] s (s.flushEntry p e) := by
  have left := entriesLeft_entryLeft s e
  unfold State.flushEntry
  split
  · exact ⟨⟨left.ports, left.outside, left.falls, left.mgmtQueue, left.reported, left.flagged⟩, left.holds, left.restart,
      left.plain⟩
  · exact left

theorem entriesLeft_flush (p : Port) (es : List QueueEntry) (s : State) :
    EntriesLeft es s (es.foldl (State.flushEntry p) s) := by
  induction es generalizing s with
  | nil => exact entriesLeft_nil s
  | cons e es ih => exact (entriesLeft_flushEntry p s e).append (ih _)

/-- R88: the flush hands on a target port down claim for each request entry, front to back. -/
theorem claims_flush (p : Port) (es : List QueueEntry) (s : State) : (es.foldl (State.flushEntry p) s).wires.claims
    = s.wires.claims ++ (es.filterMap QueueEntry.callTag).map (Claim.targetPortDown p) := by
  have one (s : State) (e : QueueEntry) :
      (s.flushEntry p e).wires.claims = s.wires.claims ++ e.callTag.toList.map (Claim.targetPortDown p) := by
    unfold State.flushEntry
    split
    · next tag named => simp [named, claims_entryLeft]
    · next none => simp [none, claims_entryLeft]
  induction es generalizing s with
  | nil => simp
  | cons e es ih =>
    rw [List.foldl_cons, ih, one, List.filterMap_cons]
    cases e.callTag <;> simp

/-! ### The entries of the management input queue (R129) -/

theorem onlyReleases_mgmtDropped (es : List MgmtEntry) (s : State) : OnlyReleases s (es.foldl State.dropMgmtEntry s) :=
  .foldl (fun s (e : MgmtEntry) => onlyReleases_release s e.buffer) es s

theorem holds_mgmtDropped (es : List MgmtEntry) (s : State) (c : BufIx) :
    ((es.foldl State.dropMgmtEntry s).buffer c).holds = (s.buffer c).holds - es.countP (fun e => e.buffer == c) := by
  induction es generalizing s with
  | nil => rfl
  | cons e es ih =>
    rw [List.foldl_cons, ih, State.dropMgmtEntry, holds_release, Nat.sub_sub, List.countP_cons, Nat.add_comm]
    simp only [beq_iff_eq]

theorem mgmt_mgmtDropped (es : List MgmtEntry) (s : State) : (es.foldl State.dropMgmtEntry s).mgmt = s.mgmt
    ∧ (es.foldl State.dropMgmtEntry s).wires.claims = s.wires.claims := by
  induction es generalizing s with
  | nil => exact ⟨rfl, rfl⟩
  | cons e es ih =>
    have one := onlyHolding_release s e.buffer
    exact ⟨(ih _).1.trans one.mgmt, (ih _).2.trans one.claims⟩

/-! ### Leaving service (R88, R106, R128 to R130, R135) -/

/-- Port p has taken the state it leaves for, its demands of an earlier leaving settled before; its entries are still to be let go. -/
def State.portGone (s : State) (p : Port) (target : PortState) : State :=
  ((s.settleDemands p).modPort p (portLeft target)).judgePort p (s.settleDemands p)

/-- Port p's queues are flushed. -/
def State.portFlushed (s : State) (p : Port) (target : PortState) : State :=
  ((s.settleDemands p).port p).allEntries.foldl (State.flushEntry p) (s.portGone p target)

/-- The port down claim is handed on, and port p's entries are struck off the management input queue; their holds are still to be
released. -/
def State.mgmtStruck (s : State) (p : Port) : State :=
  { s.addClaim (.portDown p) with mgmt := { s.mgmt with queue := s.mgmt.queue.filter (fun e => e.port != p) } }

theorem leaveService_eq (s : State) (p : Port) (target : PortState) : s.leaveService p target
    = ((s.portFlushed p target).mgmt.queue.filter (fun e => e.port == p)).foldl State.dropMgmtEntry
        ((s.portFlushed p target).mgmtStruck p) := rfl

theorem flagged_mgmtStruck (s : State) (p : Port) (f : Flag) : (s.mgmtStruck p).flagged f ↔ s.flagged f := Iff.rfl
theorem port_mgmtStruck (s : State) (p q : Port) : (s.mgmtStruck p).port q = s.port q := rfl
theorem buffer_mgmtStruck (s : State) (p : Port) (b : BufIx) : (s.mgmtStruck p).buffer b = s.buffer b := rfl
theorem restart_mgmtStruck (s : State) (p : Port) : (s.mgmtStruck p).mgmt.restart = s.mgmt.restart := rfl
theorem mgmtQueue_mgmtStruck (s : State) (p : Port) :
    (s.mgmtStruck p).mgmt.queue = s.mgmt.queue.filter (fun e => e.port != p) := rfl
theorem claims_mgmtStruck (s : State) (p : Port) : (s.mgmtStruck p).wires.claims = s.wires.claims ++ [.portDown p] := rfl

section
variable (s : State) (p : Port) (target : PortState)

theorem port_portGone : (s.portGone p target).port p = portLeft target (s.port p) := by
  rw [State.portGone, (onlyFlags_judgePort _ _ _).port, State.port_modPort_self, (endsCalls_settleDemands s p).ports p]
  rfl

theorem flagged_settleDemands (f : Flag) (set : s.flagged f) : (s.settleDemands p).flagged f :=
  (endsCalls_settleDemands s p).flagged f set

theorem entriesLeft_portFlushed :
    EntriesLeft ((s.settleDemands p).port p).allEntries (s.portGone p target) (s.portFlushed p target) := entriesLeft_flush p _ _

/-- The last part of a leaving, behind the flush: holds of management entries are released. -/
theorem onlyReleases_leaveService : OnlyReleases ((s.portFlushed p target).mgmtStruck p) (s.leaveService p target) := by
  rw [leaveService_eq]
  exact onlyReleases_mgmtDropped _ _

theorem mgmtQueue_portFlushed : (s.portFlushed p target).mgmt.queue = s.mgmt.queue := by
  rw [(entriesLeft_portFlushed s p target).mgmtQueue, State.portGone, (onlyFlags_judgePort _ _ _).mgmt, State.modPort_mgmt,
    (endsCalls_settleDemands s p).mgmt]
  rfl

theorem mgmtQueue_leaveService : (s.leaveService p target).mgmt.queue = s.mgmt.queue.filter (fun e => e.port != p) := by
  rw [(onlyReleases_leaveService s p target).mgmtQueue, mgmtQueue_mgmtStruck, mgmtQueue_portFlushed]

theorem claims_leaveService : (s.leaveService p target).wires.claims = (s.settleDemands p).wires.claims
    ++ (((s.settleDemands p).port p).allEntries.filterMap QueueEntry.callTag).map (Claim.targetPortDown p) ++ [.portDown p] := by
  rw [leaveService_eq, (mgmt_mgmtDropped _ _).2, claims_mgmtStruck, State.portFlushed, claims_flush, State.portGone,
    (onlyFlags_judgePort _ _ _).claims, State.modPort_wires]

/-- A flag that the port's leaving sets stays set while its work is let go. -/
theorem flagged_leaveService (f : Flag) (set : (s.portGone p target).flagged f) : (s.leaveService p target).flagged f := by
  refine (onlyReleases_leaveService s p target).flagged f ?_
  rw [flagged_mgmtStruck]
  exact (entriesLeft_portFlushed s p target).flagged f set

theorem port_leaveService (outside : target.inService = false) :
    (s.leaveService p target).port p = portLeft target (s.port p) := by
  have gone := port_portGone s p target
  have flushed : (s.portFlushed p target).port p = portLeft target (s.port p) := by
    rw [(entriesLeft_portFlushed s p target).outside p (by rw [gone]; exact outside), gone]
  have struck := port_mgmtStruck (s.portFlushed p target) p p
  rw [(onlyReleases_leaveService s p target).outside p (by rw [struck, flushed]; exact outside), struck, flushed]

end

/-! ### The flags of an entry into ISOLATED (R106, R164) -/

/-- A judgement of a port raises what changed of its four conditions. -/
theorem flagged_judgePort_rise_isolated {s before : State} {p : Port} (was : before.levelHolds (.isolated p) = false)
    (now : s.levelHolds (.isolated p) = true) : (s.judgePort p before).flagged (.rise (.isolated p)) := by
  unfold State.judgePort
  rw [was]
  refine (onlyFlags_judge _ _ _).flagged _ (flagged_judge_rise ?_)
  rw [(onlyFlags_judge _ _ _).levelHolds, (onlyFlags_judge _ _ _).levelHolds, now]

theorem flagged_judgePort_fall_holding {s before : State} {p : Port} (was : before.levelHolds (.holding p) = true)
    (now : s.levelHolds (.holding p) = false) : (s.judgePort p before).flagged (.fall (.holding p)) := by
  unfold State.judgePort
  rw [was]
  refine flagged_judge_fall ?_
  rw [(onlyFlags_judge _ _ _).levelHolds, (onlyFlags_judge _ _ _).levelHolds, (onlyFlags_judge _ _ _).levelHolds, now]

theorem flagged_leaveService_isolated {s : State} {p : Port} (served : (s.port p).state.inService = true) :
    (s.leaveService p .isolated).flagged (.rise (.isolated p)) := by
  refine flagged_leaveService s p .isolated _ (flagged_judgePort_rise_isolated ?_ ?_)
  · rw [State.levelHolds, (endsCalls_settleDemands s p).ports p]
    show ((s.port p).state == .isolated) = false
    cases state : (s.port p).state <;> simp [state, PortState.inService] at served ⊢
  · simp [State.levelHolds, portLeft]

theorem flagged_leaveService_holding {s : State} {p : Port} (holds : (s.port p).ownHold ≠ none) (target : PortState) :
    (s.leaveService p target).flagged (.fall (.holding p)) := by
  refine flagged_leaveService s p target _ (flagged_judgePort_fall_holding ?_ ?_)
  · rw [State.levelHolds, (endsCalls_settleDemands s p).ports p]
    exact Option.isSome_iff_ne_none.mpr holds
  · simp [State.levelHolds, portLeft]

/-- R88, R129: where no demand of an earlier leaving waits, what the leaving ends of the port's work. -/
theorem workFlushed_leaveService {s : State} {p : Port} (none : ∀ d ∈ s.wires.claims, d.isLeaving p = false)
    (target : PortState) : WorkFlushed s (s.leaveService p target) p [] ((s.port p).allEntries.filterMap QueueEntry.callTag) := by
  have settled := settleDemands_of_none none
  have gone : OnlyFlags (s.modPort p (portLeft target)) (s.portGone p target) := by
    rw [State.portGone, settled]
    exact onlyFlags_judgePort _ _ _
  have flushed := entriesLeft_portFlushed s p target
  rw [settled] at flushed
  refine ⟨?_, mgmtQueue_leaveService s p target, fun b => ?_, fun r carries pending => ?_⟩
  · rw [claims_leaveService, settled, List.append_nil]
  · rw [leaveService_eq, holds_mgmtDropped, buffer_mgmtStruck, flushed.holds, gone.buffer, mgmtQueue_portFlushed, Nat.sub_sub]
    rfl
  · rw [leaveService_eq, (mgmt_mgmtDropped _ _).1, restart_mgmtStruck]
    exact flushed.restart r carries (by rw [gone.mgmt]; exact pending)

end Sys2Proof.Machine
end

section
/-! The line of a port (R111, R114 to R117, R136): what the line monitor and the frame receiver make of what arrives while no FRAME
is being collected, and the statements about idle runs, characters and losses of signal. -/

namespace Sys2Proof.Machine
open Sys2Proof

/-! ### A turn of a port's line -/

/-- From s to t the line of port p went on, and made y of the port: besides flags of its link nothing else changed. -/
structure LineTurned (p : Port) (s t : State) (y : PortSt) : Prop where
  port : t.port p = y
  pool : t.pool = s.pool
  mgmt : t.mgmt = s.mgmt
  claims : t.wires.claims = s.wires.claims
  timeBase : t.timeBase = s.timeBase
  flags : FlagsBecome s t (fun f => (f = .rise (.linkUp p) ∧ (s.port p).linkUp = false ∧ y.linkUp = true)
    ∨ (f = .fall (.linkUp p) ∧ (s.port p).linkUp = true ∧ y.linkUp = false))
  still : y.linkUp = (s.port p).linkUp → t.events = s.events ∧ t.wires = s.wires

section
variable {p : Port} {s t : State} {y : PortSt}

theorem LineTurned.rise (h : LineTurned p s t y) (down : (s.port p).linkUp = false) (up : y.linkUp = true) :
    t.flagged (.rise (.linkUp p)) := (h.flags _).mpr (.inr (.inl ⟨rfl, down, up⟩))

theorem LineTurned.fall (h : LineTurned p s t y) (up : (s.port p).linkUp = true) (down : y.linkUp = false) :
    t.flagged (.fall (.linkUp p)) := (h.flags _).mpr (.inr (.inr ⟨rfl, up, down⟩))

/-- A change of the port that leaves its link up or down. -/
theorem lineTurned_modPort {f : PortSt → PortSt} (link : (f (s.port p)).linkUp = (s.port p).linkUp) :
    LineTurned p s (s.modPort p f) (f (s.port p)) where
  port := State.port_modPort_self s p f
  pool := rfl
  mgmt := rfl
  claims := rfl
  timeBase := rfl
  flags := flagsBecome_congr (flagsBecome_ofEvents rfl) fun g => by simp +contextual [link]
  still := fun _ => ⟨rfl, rfl⟩

/-- A change of the port that leaves its link, with the rest of the line's turn behind it. -/
theorem LineTurned.after {f : PortSt → PortSt} (h : LineTurned p (s.modPort p f) t y)
    (link : (f (s.port p)).linkUp = (s.port p).linkUp) : LineTurned p s t y := by
  have link' : ((s.modPort p f).port p).linkUp = (s.port p).linkUp := by rw [State.port_modPort_self, link]
  refine ⟨h.port, h.pool, h.mgmt, h.claims, h.timeBase, ?_, fun same => h.still (same.trans link'.symm)⟩
  rw [← link']
  exact h.flags

/-- A change of the port behind the line's turn. -/
theorem LineTurned.modPort {f : PortSt → PortSt} (h : LineTurned p s t y) (link : (f y).linkUp = y.linkUp) :
    LineTurned p s (t.modPort p f) (f y) := by
  refine ⟨?_, h.pool, h.mgmt, h.claims, h.timeBase, ?_, fun same => h.still (link.symm.trans same)⟩
  · rw [State.port_modPort_self, h.port]
  · rw [link]
    exact h.flags

/-- A change of the port's link, judged (R117, R164). -/
theorem lineTurned_judged (f : PortSt → PortSt) :
    LineTurned p s ((s.modPort p f).judge (.linkUp p) (s.levelHolds (.linkUp p))) (f (s.port p)) := by
  have flags := onlyFlags_judge (s.modPort p f) (.linkUp p) (s.levelHolds (.linkUp p))
  refine ⟨?_, flags.pool, flags.mgmt, flags.claims, flags.timeBase, ?_, fun same => ?_⟩
  · rw [flags.port, State.port_modPort_self]
  · refine flagsBecome_congr (flagsBecome_judgeAfter rfl _ _) fun g => ?_
    simp [State.levelHolds]
  · rw [judge_same]
    · exact ⟨rfl, rfl⟩
    · rw [State.levelHolds, State.port_modPort_self]
      exact same

end

/-! ### The line monitor (R115 to R117, R136) -/

theorem clearTally_eq (s : State) (p : Port) : s.clearTally p
    = s.modPort p (fun x => { x with recoveryTally := if x.state = .isolated then 0 else x.recoveryTally }) := by
  unfold State.clearTally
  split
  · next isolated => simp only [State.modPort, show (look s.ports p).state = .isolated from isolated, if_true]
  · next other => exact (modPort_of_fixed (by rw [if_neg other])).symm

/-- R136, R137: an idle run that does not complete the tally of an ISOLATED port. -/
theorem recoveryRun_eq {s : State} {p : Port} (short : (s.port p).state = .isolated → (s.port p).recoveryTally + 1 < 64) :
    s.recoveryRun p = s.modPort p (fun x => { x with
      recoveryTally := if x.state = .isolated then x.recoveryTally + 1 else x.recoveryTally }) := by
  unfold State.recoveryRun
  split
  · next isolated =>
    have least : min Config.recoveryRuns ((look s.ports p).recoveryTally + 1) = (look s.ports p).recoveryTally + 1 :=
      Nat.min_eq_right (Nat.le_of_lt (short isolated))
    have incomplete : (s.port p).recoveryTally + 1 ≠ Config.recoveryRuns := (short isolated).ne
    rw [if_neg]
    · simp only [State.modPort, least, show (look s.ports p).state = .isolated from isolated, if_true]
    · rw [State.port_modPort_self]
      show ¬ min Config.recoveryRuns ((s.port p).recoveryTally + 1) = Config.recoveryRuns
      rw [show min Config.recoveryRuns ((s.port p).recoveryTally + 1) = (s.port p).recoveryTally + 1 from least]
      exact incomplete
  · next other => exact (modPort_of_fixed (by rw [if_neg other])).symm

section
variable {s : State} {p : Port}

/-- R115: a recognised character at the line monitor, short of the 16th idle mark. -/
theorem lineCharacter_eq {idle : Bool} (enabled : (s.port p).state ≠ .disabled)
    (short : idle = true → (s.port p).idleCount < 15) : s.lineCharacter p idle
      = s.modPort p (fun x => { x with idleCount := if idle then x.idleCount + 1 else 0, watch := some 1 }) := by
  have incomplete : ¬ (idle = true ∧ Config.idleRunLength ≤ (s.port p).idleCount + 1) := fun ⟨mark, most⟩ => by
    have := short mark
    simp only [Config.idleRunLength] at most
    omega
  rw [State.lineCharacter, if_neg enabled, if_neg incomplete]

/-- R115: the 16th idle mark hands the idle run in its own act. -/
theorem lineCharacter_complete (enabled : (s.port p).state ≠ .disabled) (complete : 15 ≤ (s.port p).idleCount) :
    s.lineCharacter p true = s.lineIdleRun p := by
  rw [State.lineCharacter, if_neg enabled, if_pos]
  exact ⟨rfl, Nat.succ_le_succ complete⟩

theorem lineTurned_lineCharacter {idle : Bool} (enabled : (s.port p).state ≠ .disabled)
    (short : idle = true → (s.port p).idleCount < 15) : LineTurned p s (s.lineCharacter p idle)
      { s.port p with idleCount := if idle then (s.port p).idleCount + 1 else 0, watch := some 1 } := by
  rw [lineCharacter_eq enabled short]
  exact lineTurned_modPort rfl

theorem lineTurned_lineUnrecognised (enabled : (s.port p).state ≠ .disabled) : LineTurned p s (s.lineUnrecognised p)
    { s.port p with
      idleCount := 0
      recoveryTally := if (s.port p).state = .isolated then 0 else (s.port p).recoveryTally } := by
  rw [State.lineUnrecognised, if_neg enabled, clearTally_eq]
  exact (lineTurned_modPort rfl).modPort rfl

theorem lineTurned_lineIdleRun (short : (s.port p).state = .isolated → (s.port p).recoveryTally + 1 < 64) :
    LineTurned p s (s.lineIdleRun p) { s.port p with
      watch := some 1
      idleCount := 0
      linkUp := true
      recoveryTally := if (s.port p).state = .isolated then (s.port p).recoveryTally + 1 else (s.port p).recoveryTally } := by
  unfold State.lineIdleRun State.handIdleRun
  have handed : LineTurned p s _ _ := LineTurned.after (f := fun x => { x with watch := some 1 })
    (lineTurned_judged (fun x => { x with idleCount := 0, linkUp := true })) rfl
  rw [State.port_modPort_self] at handed
  rw [recoveryRun_eq (by rw [handed.port]; exact short)]
  exact handed.modPort rfl

theorem lineTurned_lineLoss : LineTurned p s (s.lineLoss p) { s.port p with
    idleCount := 0
    watch := none
    linkUp := false
    recoveryTally := if (s.port p).state = .isolated then 0 else (s.port p).recoveryTally } := by
  rw [State.lineLoss, clearTally_eq]
  exact (lineTurned_judged (fun x => { x with idleCount := 0, watch := none, linkUp := false })).modPort rfl

/-! ### Arrivals while no FRAME is being collected (R111, R112, R114) -/

theorem port_setReception (s : State) (p : Port) (r : Reception) :
    (s.setReception p r).port p = { s.port p with reception := r } := State.port_modPort_self _ _ _

/-- The line's turn behind a change of the FRAME in reception. -/
theorem LineTurned.afterReception {t : State} {y : PortSt} {r : Reception} (h : LineTurned p (s.setReception p r) t y) :
    LineTurned p s t y := LineTurned.after h rfl

/-- R111, R132: what the receiver is in after a character that breaks no FRAME. -/
def receptionAfter (receives : Bool) (r : Reception) : Character → Reception
  | .start => if receives then .taking [] 0 else .passingOver
  | .data b =>
    match r with
    | .taking kept n => .taking ((kept ++ [b]).take 61) (n + 1)
    | .none => .none
    | .passingOver => .passingOver
  | .endChar => r
  | .idleMark | .control => .none

theorem put_put {α : Type} {n : Nat} (v : Vector α n) (i : Fin n) (x y : α) : put (put v i x) i y = put v i y :=
  Vector.set_set ..

theorem modPort_modPort (s : State) (p : Port) (f g : PortSt → PortSt) :
    (s.modPort p f).modPort p g = s.modPort p (g ∘ f) := by
  simp only [State.modPort, look_put_self, put_put, Function.comp_apply]

theorem setReception_setReception (s : State) (p : Port) (r r' : Reception) :
    (s.setReception p r).setReception p r' = s.setReception p r' := modPort_modPort ..

theorem setReception_self (s : State) (p : Port) : s.setReception p (s.port p).reception = s := modPort_of_fixed rfl

theorem receives_setReception (s : State) (p : Port) (r : Reception) : (s.setReception p r).receives p = s.receives p := by
  rw [State.receives, port_setReception]
  rfl

theorem receiveCharacter_unbroken {c : Character} (unbroken : (s.port p).reception.isTaking = false ∨ ∃ b, c = .data b) :
    s.receiveCharacter p c = s.setReception p (receptionAfter (s.receives p) (s.port p).reception c) := by
  have closed : c = .start ∨ c = .idleMark ∨ c = .control → s.breakReception p = s.setReception p .none := by
    rintro breaks
    refine breakReception_of_not_taking (unbroken.resolve_right ?_)
    rintro ⟨b, rfl⟩
    simp at breaks
  cases c with
  | start => rw [State.receiveCharacter, closed (by simp), receives_setReception, setReception_setReception]; rfl
  | data b =>
    unfold State.receiveCharacter
    dsimp only
    have kept := setReception_self s p
    cases reception : (s.port p).reception with
    | taking held n => rfl
    | none => exact (reception ▸ kept).symm
    | passingOver => exact (reception ▸ kept).symm
  | endChar => exact (setReception_self s p).symm
  | idleMark => exact closed (by simp)
  | control => exact closed (by simp)

/-- R111, R115, R116: a character that breaks no FRAME, ends none and completes no idle run. -/
theorem lineTurned_arriveCharacter {c : Character} (enabled : (s.port p).state ≠ .disabled)
    (short : c = .idleMark → (s.port p).idleCount < 15) (outside : c = .endChar → (s.port p).reception = .none)
    (unbroken : (s.port p).reception.isTaking = false ∨ ∃ b, c = .data b) :
    LineTurned p s (s.arriveCharacter p c) { s.port p with
      reception := receptionAfter (s.receives p) (s.port p).reception c
      idleCount := if c = .idleMark then (s.port p).idleCount + 1 else 0
      watch := some 1 } := by
  rw [State.arriveCharacter, if_neg enabled, if_neg fun ⟨ends, under⟩ => under (outside ends), receiveCharacter_unbroken unbroken]
  refine LineTurned.afterReception (r := receptionAfter (s.receives p) (s.port p).reception c) ?_
  have turned := lineTurned_lineCharacter (s := s.setReception p (receptionAfter (s.receives p) (s.port p).reception c)) (p := p)
    (idle := c == .idleMark) (by rw [port_setReception]; exact enabled)
    (by rw [port_setReception]; exact fun mark => short (by simpa using mark))
  rw [port_setReception] at turned
  simpa using turned

theorem lineTurned_arriveUnrecognised (enabled : (s.port p).state ≠ .disabled) (idle : (s.port p).reception.isTaking = false) :
    LineTurned p s (s.arriveUnrecognised p) { s.port p with
      reception := .none
      idleCount := 0
      recoveryTally := if (s.port p).state = .isolated then 0 else (s.port p).recoveryTally } := by
  rw [State.arriveUnrecognised, if_neg enabled, breakReception_of_not_taking idle]
  have turned := lineTurned_lineUnrecognised (s := s.setReception p .none) (p := p) (by rwa [port_setReception])
  rw [port_setReception] at turned
  exact turned.afterReception

theorem lineTurned_arriveIdleRun (enabled : (s.port p).state ≠ .disabled) (idle : (s.port p).reception.isTaking = false)
    (short : (s.port p).state = .isolated → (s.port p).recoveryTally + 1 < 64) :
    LineTurned p s (s.arriveIdleRun p) { s.port p with
      reception := .none
      watch := some 1
      idleCount := 0
      linkUp := true
      recoveryTally := if (s.port p).state = .isolated then (s.port p).recoveryTally + 1 else (s.port p).recoveryTally } := by
  rw [State.arriveIdleRun, if_neg enabled, breakReception_of_not_taking idle]
  have turned := lineTurned_lineIdleRun (s := s.setReception p .none) (p := p) (by rwa [port_setReception])
  rw [port_setReception] at turned
  exact turned.afterReception

/-- R116: the time the watch has left passes before the loss. -/
theorem lineTurned_arriveLoss {left : Nat} (enabled : (s.port p).state ≠ .disabled)
    (idle : (s.port p).reception.isTaking = false) (watched : (s.port p).watch = some left) :
    LineTurned p (s.elapse left) (s.arriveLoss p) { portAfter left (s.port p) with
      reception := .none
      idleCount := 0
      watch := none
      linkUp := false
      recoveryTally := if (s.port p).state = .isolated then 0 else (s.port p).recoveryTally } := by
  rw [arriveLoss_of_watched enabled watched, breakReception_of_not_taking (by rwa [State.port_elapse])]
  have turned := lineTurned_lineLoss (s := (s.elapse left).setReception p .none) (p := p)
  rw [port_setReception, State.port_elapse] at turned
  exact turned.afterReception

/-- R114, R129, R132: the end of a FRAME passed over, or of one on a port that does not receive. -/
theorem arriveFrame_unvalidated (enabled : (s.port p).state ≠ .disabled)
    (passed : s.receives p = false ∨ (s.port p).reception = .passingOver) (chars : List Byte) :
    s.arriveFrame p chars = s.frameOver p := by
  have ended : (s.lineCharacter p false).setReception p .none = s.frameOver p := by
    rw [lineCharacter_eq enabled (by simp)]
    rfl
  have reception : ((s.lineCharacter p false).port p).reception = (s.port p).reception := by
    rw [lineCharacter_eq enabled (by simp), State.port_modPort_self]
  unfold State.arriveFrame
  dsimp only
  rw [ended, reception, receives_frameOver]
  refine if_neg ?_
  rcases passed with deaf | passing
  · simp [deaf]
  · simp [passing]

theorem arriveCharacter_ends (enabled : (s.port p).state ≠ .disabled) (under : (s.port p).reception ≠ .none) :
    s.arriveCharacter p .endChar = s.arriveFrame p [] := by
  rw [State.arriveCharacter, if_neg enabled, if_pos ⟨rfl, under⟩]

/-! ### The error score at a bad frame (R111, R121) -/

theorem raiseScore_below {n : Nat} (serves : (s.port p).state.inService = true) (below : (s.port p).score + n < 255) :
    s.raiseScore p n = (s.modPort p (fun x => { x with score := x.score + n })).judge (.warn p) (s.levelHolds (.warn p)) := by
  rw [State.raiseScore, if_pos serves, if_neg (show ¬ Config.scoreCap ≤ _ from Nat.not_le.mpr below)]

theorem raiseScore_atCap {n : Nat} (serves : (s.port p).state.inService = true) (reached : 255 ≤ (s.port p).score + n) :
    s.raiseScore p n = s.leaveService p .isolated := by
  rw [State.raiseScore, if_pos serves, if_pos (show Config.scoreCap ≤ _ from reached)]

theorem raiseScore_outOfService {n : Nat} (outside : ¬ (s.port p).state.inService = true) : s.raiseScore p n = s := if_neg outside

end

/-- R111: the answer to a bad frame, and its count. -/
def State.checkAnswered (s : State) (p : Port) : State :=
  (s.pushControl p (.answer (.nak .check))).modPortCount p (fun c => { c with rxCheck := c.rxCheck + 1 })

theorem badFrame_eq (s : State) (p : Port) : s.badFrame p = (s.checkAnswered p).raiseScore p 4 := rfl

theorem port_checkAnswered (s : State) (p : Port) : (s.checkAnswered p).port p = { s.port p with
    control := (s.port p).control ++ [.answer (.nak .check)]
    counters := { (s.port p).counters with rxCheck := (s.port p).counters.rxCheck + 1 } } := by
  simp [State.checkAnswered, State.modPortCount, State.pushControl]

theorem enabled_of_inService {x : PortSt} (serves : x.state.inService = true) : x.state ≠ .disabled := fun disabled => by
  simp [disabled, PortState.inService] at serves

/-- What a bad frame never changes of the port's line: a port on the line stays there, also in ISOLATED (R129, R131). -/
structure LineKept (x y : PortSt) : Prop where
  enabled : x.state ≠ .disabled → y.state ≠ .disabled
  idleCount : y.idleCount = x.idleCount
  linkUp : y.linkUp = x.linkUp
  watch : x.state.inService = true → y.watch = x.watch
  reception : x.reception = .none → y.reception = .none
  attempt : y.attempt = x.attempt ∨ y.attempt = none
  tally : x.state.inService = true → y.state = .isolated → y.recoveryTally = 0

theorem lineKept_of_same {x y : PortSt} (state : y.state = x.state) (idleCount : y.idleCount = x.idleCount)
    (linkUp : y.linkUp = x.linkUp) (watch : y.watch = x.watch) (reception : x.reception = .none → y.reception = .none)
    (attempt : y.attempt = x.attempt) : LineKept x y where
  enabled := fun enabled => by rwa [state]
  idleCount := idleCount
  linkUp := linkUp
  watch := fun _ => watch
  reception := reception
  attempt := .inl attempt
  tally := fun serves isolated => by simp [← state, isolated, PortState.inService] at serves

theorem lineKept_badFrame (s : State) (p : Port) : LineKept (s.port p) ((s.badFrame p).port p) := by
  have answered := port_checkAnswered s p
  rw [badFrame_eq]
  by_cases serves : ((s.checkAnswered p).port p).state.inService = true
  · rcases Nat.lt_or_ge (((s.checkAnswered p).port p).score + 4) 255 with below | reached
    · rw [raiseScore_below serves below, (onlyFlags_judge _ _ _).port, State.port_modPort_self, answered]
      exact lineKept_of_same rfl rfl rfl rfl id rfl
    · rw [raiseScore_atCap serves reached, port_leaveService _ p .isolated rfl, answered]
      refine ⟨fun _ => ?_, rfl, rfl, fun serves => if_neg (enabled_of_inService serves), fun none => ?_, .inr rfl, fun _ _ => rfl⟩
      · exact PortState.noConfusion
      · show receptionClosed (s.port p).reception = .none
        rw [none]
        rfl
  · rw [raiseScore_outOfService serves, answered]
    exact lineKept_of_same rfl rfl rfl rfl id rfl

/-- The FRAME in reception, broken or not, is over, and the line is as it was. -/
theorem lineKept_breakReception (s : State) (p : Port) :
    LineKept { s.port p with reception := .none } ((s.breakReception p).port p) := by
  unfold State.breakReception
  split
  · have kept := lineKept_badFrame (s.setReception p .none) p
    rwa [port_setReception] at kept
  · rw [port_setReception]
    exact lineKept_of_same rfl rfl rfl rfl id rfl

/-- R115: the 16th idle mark is the idle run. -/
theorem arriveCharacter_idleRun {s : State} {p : Port} (complete : 15 ≤ (s.port p).idleCount) :
    s.arriveCharacter p .idleMark = s.arriveIdleRun p := by
  by_cases disabled : (s.port p).state = .disabled
  · rw [State.arriveCharacter, if_pos disabled, State.arriveIdleRun, if_pos disabled]
  · have kept := lineKept_breakReception s p
    rw [State.arriveCharacter, if_neg disabled, if_neg (by simp), State.arriveIdleRun, if_neg disabled]
    show (s.breakReception p).lineCharacter p true = _
    exact lineCharacter_complete (kept.enabled disabled) (by rw [kept.idleCount]; exact complete)

end Sys2Proof.Machine

open Sys2Proof Sys2Proof.Machine

/-- Settles O16: each arrival is a turn of the port's line, whose items are read off it. -/
theorem idleRunsAndCharactersAtTheLine : Obligations.IdleRunsAndCharactersAtTheLine := by
  refine ⟨fun s p run enabled present idle => ⟨_, running_of_notReset run (·.arriveIdleRun p), ?_⟩, fun s p disabled => ?_,
    fun s p c run enabled short outside unbroken => ⟨_, running_of_notReset run (·.arriveCharacter p c), ?_⟩,
    fun s p enabled under => ?_,
    fun s p chars run enabled passed => ⟨_, running_of_notReset run (·.arriveFrame p chars), ?_⟩,
    fun s p complete => ?_,
    fun s p run enabled idle => ⟨_, running_of_notReset run (·.arriveUnrecognised p), ?_⟩⟩
  · have turned := lineTurned_arriveIdleRun enabled idle fun isolated => absurd isolated present
    refine ⟨?_, ?_, ?_, ?_, queue_of_lists ?_ ?_ ?_, fun down => turned.rise down rfl, fun up => turned.still up.symm⟩ <;>
      rw [turned.port]
  · exact ⟨running_of_fixed (f := (·.arriveIdleRun p)) (if_pos disabled),
      running_of_fixed (f := (·.arriveLoss p)) (if_pos disabled),
      running_of_fixed (f := (·.arriveUnrecognised p)) (if_pos disabled),
      fun c => running_of_fixed (f := (·.arriveCharacter p c)) (if_pos disabled)⟩
  · have turned := lineTurned_arriveCharacter enabled short outside unbroken
    obtain ⟨events, wires⟩ := turned.still rfl
    rw [turned.port]
    refine ⟨rfl, rfl, rfl, rfl, rfl, events, wires, fun starts => ?_, fun b kept n data taking => ?_⟩
    · rw [starts]
      rfl
    · rw [data, taking]
      rfl
  · show running (·.arriveCharacter p .endChar) s = running (·.arriveFrame p []) s
    unfold running
    dsimp only
    rw [arriveCharacter_ends enabled under]
  · rw [arriveFrame_unvalidated enabled passed]
    refine ⟨?_, ?_, ?_, ?_, ?_, ?_, ?_, rfl, rfl, rfl, rfl, queue_of_lists ?_ ?_ ?_⟩ <;> rw [port_frameOver]
  · show running (·.arriveCharacter p .idleMark) s = running (·.arriveIdleRun p) s
    unfold running
    dsimp only
    rw [arriveCharacter_idleRun complete]
  · have turned := lineTurned_arriveUnrecognised enabled idle
    rw [turned.port]
    exact ⟨rfl, rfl, rfl, rfl, rfl, rfl⟩

/-- Settles O18: the time of the watch passes, and the loss is a turn of the port's line. -/
theorem lossOfSignalTakesLinkDown : Obligations.LossOfSignalTakesLinkDown := by
  refine ⟨fun s p left run enabled idle watched => ⟨_, running_of_notReset run (·.arriveLoss p), ?_⟩, fun s p unwatched => ?_⟩
  · have turned := lineTurned_arriveLoss enabled idle watched
    have link : ((s.elapse left).port p).linkUp = (s.port p).linkUp := by rw [State.port_elapse]; rfl
    refine ⟨?_, ?_, ?_, ?_, ?_, ?_, queue_of_lists ?_ ?_ ?_, ?_, turned.timeBase, fun up => turned.fall (link.trans up) rfl,
      fun down => turned.still (link.trans down).symm⟩ <;> rw [turned.port]
    all_goals rfl
  · refine running_of_fixed (f := (·.arriveLoss p)) ?_
    unfold State.arriveLoss
    split
    · rfl
    · rw [unwatched]
end

section
/-! Bad and broken frames (R111, R112): where a bad frame is answered, what broke it is taken for what it is, and the statement
about the answers below the score's cap. -/

namespace Sys2Proof.Machine
open Sys2Proof

/-! ### What an arrival changes of a port besides its line -/

/-- y is the port x but for the items of its line and for its timers. -/
structure SameButLine (x y : PortSt) : Prop where
  state : y.state = x.state
  returnState : y.returnState = x.returnState
  score : y.score = x.score
  control : y.control = x.control
  sending : y.sending = x.sending
  data : y.data = x.data
  gq : y.gq = x.gq
  mq : y.mq = x.mq
  counters : y.counters = x.counters
  awaiting : y.awaiting = x.awaiting
  ownHold : y.ownHold = none → x.ownHold = none
  quiet : x.quiet → y.quiet

namespace SameButLine

theorem refl (x : PortSt) : SameButLine x x := ⟨rfl, rfl, rfl, rfl, rfl, rfl, rfl, rfl, rfl, rfl, id, id⟩

theorem trans {x y z : PortSt} (h : SameButLine x y) (k : SameButLine y z) : SameButLine x z where
  state := k.state.trans h.state
  returnState := k.returnState.trans h.returnState
  score := k.score.trans h.score
  control := k.control.trans h.control
  sending := k.sending.trans h.sending
  data := k.data.trans h.data
  gq := k.gq.trans h.gq
  mq := k.mq.trans h.mq
  counters := k.counters.trans h.counters
  awaiting := k.awaiting.trans h.awaiting
  ownHold := h.ownHold ∘ k.ownHold
  quiet := k.quiet ∘ h.quiet

/-- The items of the line. -/
theorem line (x : PortSt) (reception : Reception) (idleCount : Nat) (watch : Option Nat) (linkUp : Bool) (tally : Nat) :
    SameButLine x { x with
      reception := reception, idleCount := idleCount, watch := watch, linkUp := linkUp, recoveryTally := tally } :=
  ⟨rfl, rfl, rfl, rfl, rfl, rfl, rfl, rfl, rfl, rfl, id, id⟩

/-- R171: time passes, and a timer that does not run stays so. -/
theorem elapse (d : Nat) (x : PortSt) : SameButLine x (portAfter d x) := by
  refine ⟨rfl, rfl, rfl, rfl, rfl, rfl, rfl, rfl, rfl, rfl, ?_, ?_⟩
  · show timerAfter d x.ownHold = none → x.ownHold = none
    simp [timerAfter]
  · rintro ⟨entries, attempt, intervals, partner, own, control⟩
    refine ⟨entries, ?_, ?_, ?_, ?_, control⟩
    · show x.attempt.map (attemptAfter d) = none
      rw [attempt]
      rfl
    · show x.intervals.map (timerAfter d) = _
      rw [intervals]
      simp [timerAfter]
    · show timerAfter d x.partnerHold = none
      rw [partner]
      rfl
    · show timerAfter d x.ownHold = none
      rw [own]
      rfl

theorem allEntries {x y : PortSt} (h : SameButLine x y) : y.allEntries = x.allEntries := by
  unfold PortSt.allEntries
  rw [h.data, h.gq, h.mq]

end SameButLine

/-- From s to t time passed and the line of port p went on: of what the unit holds besides, nothing changed but flags. -/
structure OnlyLine (p : Port) (s t : State) : Prop where
  port : SameButLine (s.port p) (t.port p)
  pool : t.pool = s.pool
  mgmt : t.mgmt = s.mgmt
  claims : t.wires.claims = s.wires.claims

theorem OnlyLine.refl (p : Port) (s : State) : OnlyLine p s s := ⟨.refl _, rfl, rfl, rfl⟩

theorem OnlyLine.trans {p : Port} {s t u : State} (h : OnlyLine p s t) (k : OnlyLine p t u) : OnlyLine p s u :=
  ⟨h.port.trans k.port, k.pool.trans h.pool, k.mgmt.trans h.mgmt, k.claims.trans h.claims⟩

theorem onlyLine_elapse (p : Port) (s : State) (d : Nat) : OnlyLine p s (s.elapse d) := by
  refine ⟨?_, rfl, rfl, rfl⟩
  rw [State.port_elapse]
  exact .elapse d _

theorem LineTurned.onlyLine {p : Port} {s t : State} {y : PortSt} (h : LineTurned p s t y) (same : SameButLine (s.port p) y) :
    OnlyLine p s t := ⟨by rwa [h.port], h.pool, h.mgmt, h.claims⟩

/-- A link that is UP can only fall. -/
theorem LineTurned.flags_of_up {p : Port} {s t : State} {y : PortSt} (h : LineTurned p s t y) (up : (s.port p).linkUp = true) :
    FlagsBecome s t (fun f => f = .fall (.linkUp p) ∧ y.linkUp = false) :=
  flagsBecome_congr h.flags (by simp [up])

/-! ### What breaks a FRAME, taken for what it is (R112) -/

/-- A port that a bad frame has left behind: in no FRAME, the link UP, the tally of one now ISOLATED 0 (R111, R129, R135). -/
structure FrameEnded (p : Port) (v : State) : Prop where
  enabled : (v.port p).state ≠ .disabled
  reception : (v.port p).reception = .none
  up : (v.port p).linkUp = true
  tally : (v.port p).state = .isolated → (v.port p).recoveryTally = 0

/-- From v to t what broke a FRAME arrived on port p, as an idle run where `ran`. -/
structure Arrived (p : Port) (i : Interruption) (ran : Bool) (v t : State) : Prop extends OnlyLine p v t where
  flags : FlagsBecome v t (fun f => f = .fall (.linkUp p) ∧ i = .lossOfSignal)
  reception : (t.port p).reception
    = if i = .character .start then (if v.receives p then .taking [] 0 else .passingOver) else .none
  linkUp : (t.port p).linkUp = (i != .lossOfSignal)
  tally : (v.port p).state = .isolated → (t.port p).recoveryTally = if ran then 1 else 0
  idleCount : ran = false → (t.port p).idleCount = if i = .character .idleMark then (v.port p).idleCount + 1 else 0

/-- What arrives, at the receiver and the line monitor. -/
def State.arrive (s : State) (p : Port) : Interruption → State
  | .character c => s.arriveCharacter p c
  | .unrecognised => s.arriveUnrecognised p
  | .lossOfSignal => s.arriveLoss p

theorem character_breaks_iff (c : Character) :
    (Interruption.character c).breaks = true ↔ c = .start ∨ c = .idleMark ∨ c = .control := by
  cases c <;> simp [Interruption.breaks]

section
variable {p : Port} {v : State}

/-- A turn of the line, some time after v, is the arrival whose reading it is. -/
theorem arrived_of_turned {w t : State} {y : PortSt} {i : Interruption} {ran : Bool} (before : OnlyLine p v w)
    (events : w.events = v.events) (up : (w.port p).linkUp = true) (turned : LineTurned p w t y) (same : SameButLine (w.port p) y)
    (reception : y.reception = if i = .character .start then (if v.receives p then .taking [] 0 else .passingOver) else .none)
    (linkUp : y.linkUp = (i != .lossOfSignal))
    (tally : (v.port p).state = .isolated → y.recoveryTally = if ran then 1 else 0)
    (idleCount : ran = false → y.idleCount = if i = .character .idleMark then (v.port p).idleCount + 1 else 0) :
    Arrived p i ran v t := by
  refine ⟨before.trans (turned.onlyLine same), ?_, ?_, ?_, ?_, ?_⟩
  · refine flagsBecome_congr (flagsBecome_trans (flagsBecome_ofEvents events) (turned.flags_of_up up)) fun f => ?_
    simp [linkUp]
  all_goals rwa [turned.port]

theorem arrived_idleRun (h : FrameEnded p v) : Arrived p (.character .idleMark) true v (v.arriveIdleRun p) := by
  have turned := lineTurned_arriveIdleRun h.enabled (by rw [h.reception]; rfl)
    fun isolated => by rw [h.tally isolated]; decide
  refine arrived_of_turned (.refl p v) rfl h.up turned (.line ..) rfl rfl (fun isolated => ?_) (by simp)
  simp [isolated, h.tally isolated]

theorem arrived_unrecognised (h : FrameEnded p v) : Arrived p .unrecognised false v (v.arriveUnrecognised p) := by
  have turned := lineTurned_arriveUnrecognised h.enabled (by rw [h.reception]; rfl)
  exact arrived_of_turned (.refl p v) rfl h.up turned (.line ..) rfl h.up (fun isolated => by simp [isolated]) fun _ => rfl

theorem arrived_character {c : Character} (h : FrameEnded p v) (breaks : (Interruption.character c).breaks = true)
    (short : c = .idleMark → (v.port p).idleCount < 15) : Arrived p (.character c) false v (v.arriveCharacter p c) := by
  have turned := lineTurned_arriveCharacter h.enabled short (fun _ => h.reception) (.inl (by rw [h.reception]; rfl))
  refine arrived_of_turned (.refl p v) rfl h.up turned (.line ..) ?_ h.up h.tally fun _ => by simp
  obtain rfl | rfl | rfl := (character_breaks_iff c).mp breaks <;> rfl

theorem arrived_lineLoss (h : FrameEnded p v) : Arrived p .lossOfSignal false v (v.lineLoss p) :=
  arrived_of_turned (.refl p v) rfl h.up lineTurned_lineLoss (.line ..) h.reception rfl (fun isolated => by simp [isolated])
    fun _ => rfl

theorem arrived_loss {left : Nat} (h : FrameEnded p v) (watched : (v.port p).watch = some left) :
    Arrived p .lossOfSignal false v (v.arriveLoss p) := by
  have turned := lineTurned_arriveLoss h.enabled (by rw [h.reception]; rfl) watched
  have port := State.port_elapse v left p
  refine arrived_of_turned (onlyLine_elapse p v left) rfl (by rw [port]; exact h.up) turned (by rw [port]; exact .line ..)
    rfl rfl (fun isolated => by simp [isolated]) fun _ => rfl

/-- A character that breaks a FRAME, whether or not it completes an idle run. -/
theorem arrived_character_or_run {c : Character} (h : FrameEnded p v) (breaks : (Interruption.character c).breaks = true) :
    Arrived p (.character c) (decide (c = .idleMark ∧ 15 ≤ (v.port p).idleCount)) v (v.arriveCharacter p c) := by
  by_cases run : c = .idleMark ∧ 15 ≤ (v.port p).idleCount
  · obtain ⟨rfl, complete⟩ := run
    rw [arriveCharacter_idleRun complete, decide_eq_true ⟨rfl, complete⟩]
    exact arrived_idleRun h
  · rw [decide_eq_false run]
    exact arrived_character h breaks fun mark => Nat.lt_of_not_le fun complete => run ⟨mark, complete⟩

end

/-! ### Where a bad frame is answered (R111, R112) -/

/-- At u, behind the line's part of an act begun at s, a bad frame of port p is to be answered. -/
structure FrameFails (s : State) (p : Port) (u : State) : Prop extends OnlyLine p s u where
  wasUp : (s.port p).linkUp = true
  events : u.events = s.events
  serves : (u.port p).state.inService = true
  up : (u.port p).linkUp = true
  reception : (u.port p).reception = .none

section
variable {s : State} {p : Port}

theorem served_of_validates (h : s.validatesFrame p) : (s.port p).state.inService = true ∧ (s.port p).linkUp = true := by
  obtain ⟨-, receives, -⟩ := h
  simpa only [State.receives, Bool.and_eq_true] using receives

theorem frameFails_frameOver (h : s.validatesFrame p) : FrameFails s p (s.frameOver p) := by
  obtain ⟨serves, up⟩ := served_of_validates h
  have port := port_frameOver s p
  refine ⟨⟨?_, rfl, rfl, rfl⟩, up, rfl, ?_, ?_, ?_⟩ <;> rw [port]
  · exact .line ..
  · exact serves
  · exact up

theorem frameFails_elapsed (h : s.validatesFrame p) (d : Nat) : FrameFails s p ((s.elapse d).setReception p .none) := by
  obtain ⟨serves, up⟩ := served_of_validates h
  have port := (port_setReception (s.elapse d) p .none).trans (by rw [State.port_elapse])
  refine ⟨⟨?_, rfl, rfl, rfl⟩, up, rfl, ?_, ?_, ?_⟩ <;> rw [port]
  · exact (SameButLine.elapse d _).trans (.line ..)
  · exact serves
  · exact up

theorem frameFails_broken (h : s.validatesFrame p) : FrameFails s p (s.setReception p .none) := by
  obtain ⟨serves, up⟩ := served_of_validates h
  have port := port_setReception s p .none
  refine ⟨⟨?_, rfl, rfl, rfl⟩, up, rfl, ?_, ?_, ?_⟩ <;> rw [port]
  · exact .line ..
  · exact serves
  · exact up

theorem FrameFails.frameEnded {u : State} (h : FrameFails s p u) : FrameEnded p (u.badFrame p) := by
  have kept := lineKept_badFrame u p
  exact ⟨kept.enabled (enabled_of_inService h.serves), kept.reception h.reception, kept.linkUp.trans h.up, kept.tally h.serves⟩

/-! ### The commands that a FRAME is bad or broken at -/

/-- R111: FRAME_RECEIVED of a bad frame. -/
theorem exec_frameReceived_bad {chars : List Byte} (h : s.validatesFrame p)
    (bad : goodFrame (State.collected (s.port p).reception chars).1 (State.collected (s.port p).reception chars).2 = false) :
    exec (.frameReceived p chars) s = .next ((s.frameOver p).badFrame p) := by
  obtain ⟨run, receives, taken⟩ := h
  show running (·.arriveFrame p chars) s = _
  rw [running_of_notReset run, arriveFrame_of_receives receives taken rfl, State.frameEnd, if_neg (by simp [bad])]

theorem arriveBroken_of_validates (h : s.validatesFrame p) (i : Interruption) :
    s.arriveBroken p i = ((s.frameOver p).badFrame p).arrive p i := by
  obtain ⟨run, receives, taken⟩ := h
  have over_receives : (s.frameOver p).receives p = true := (receives_frameOver s p).trans receives
  have ended : (s.lineCharacter p false).setReception p .none = s.frameOver p := by
    rw [lineCharacter_of_inService (inService_of_receives receives)]
    rfl
  have reception : ((s.lineCharacter p false).port p).reception = (s.port p).reception := by
    rw [lineCharacter_of_inService (inService_of_receives receives), State.port_modPort_self]
  unfold State.arriveBroken
  dsimp only
  rw [ended, reception, if_pos (Bool.and_eq_true_iff.mpr ⟨over_receives, bne_iff_ne.mpr taken⟩)]
  cases i <;> rfl

theorem exec_brokenFrame {i : Interruption} (h : s.validatesFrame p) (breaks : i.breaks = true) :
    exec (.brokenFrame p i) s = .next (((s.frameOver p).badFrame p).arrive p i) := by
  rw [← arriveBroken_of_validates h]
  refine (running_of_notReset h.1 _).trans (congrArg Host.Outcome.next (if_pos ?_))
  cases i with
  | character c => cases c <;> exact breaks
  | unrecognised => rfl
  | lossOfSignal => rfl

/-- R112: BROKEN_FRAME answers, then takes what broke the FRAME. -/
theorem arrived_brokenFrame {i : Interruption} (h : s.validatesFrame p) (breaks : i.breaks = true) :
    Arrived p i false ((s.frameOver p).badFrame p) (((s.frameOver p).badFrame p).arrive p i) := by
  have failing := frameFails_frameOver h
  have count : (((s.frameOver p).badFrame p).port p).idleCount = 0 := by
    rw [(lineKept_badFrame _ _).idleCount, port_frameOver]
  cases i with
  | character c => exact arrived_character failing.frameEnded breaks fun _ => by rw [count]; decide
  | unrecognised => exact arrived_unrecognised failing.frameEnded
  | lossOfSignal =>
    have watched : (((s.frameOver p).badFrame p).port p).watch = some 1 := by
      rw [(lineKept_badFrame _ _).watch failing.serves, port_frameOver]
    exact arrived_loss failing.frameEnded watched

/-! ### The commands of single arrivals that break a FRAME (R112) -/

theorem breakReception_of_none (none : (s.port p).reception = .none) : s.breakReception p = s := by
  rw [breakReception_of_not_taking (by rw [none]; rfl), ← none, setReception_self]

theorem breakReception_idem (s : State) (p : Port) : (s.breakReception p).breakReception p = s.breakReception p :=
  breakReception_of_none ((lineKept_breakReception s p).reception rfl)

theorem enabled_breakReception (enabled : (s.port p).state ≠ .disabled) : ((s.breakReception p).port p).state ≠ .disabled :=
  (lineKept_breakReception s p).enabled enabled

theorem arriveCharacter_breaks {c : Character} (enabled : (s.port p).state ≠ .disabled)
    (breaks : (Interruption.character c).breaks = true) : s.arriveCharacter p c = (s.breakReception p).arriveCharacter p c := by
  have inside : c ≠ .endChar := fun ends => by simp [ends, Interruption.breaks] at breaks
  have received : (s.breakReception p).receiveCharacter p c = s.receiveCharacter p c := by
    obtain rfl | rfl | rfl := (character_breaks_iff c).mp breaks
    · rw [State.receiveCharacter, State.receiveCharacter, breakReception_idem]
    · exact breakReception_idem s p
    · exact breakReception_idem s p
  rw [State.arriveCharacter, State.arriveCharacter, if_neg enabled, if_neg (enabled_breakReception enabled),
    if_neg (fun both => inside both.1), if_neg (fun both => inside both.1), received]

theorem arriveUnrecognised_breaks (enabled : (s.port p).state ≠ .disabled) :
    s.arriveUnrecognised p = (s.breakReception p).arriveUnrecognised p := by
  rw [State.arriveUnrecognised, State.arriveUnrecognised, if_neg enabled, if_neg (enabled_breakReception enabled),
    breakReception_idem]

theorem arriveIdleRun_breaks (enabled : (s.port p).state ≠ .disabled) :
    s.arriveIdleRun p = (s.breakReception p).arriveIdleRun p := by
  rw [State.arriveIdleRun, State.arriveIdleRun, if_neg enabled, if_neg (enabled_breakReception enabled), breakReception_idem]

theorem arriveCharacter_control (enabled : (s.port p).state ≠ .disabled) : s.arriveCharacter p .control
    = (s.breakReception p).modPort p (fun x => { x with idleCount := 0, watch := some 1 }) := by
  rw [State.arriveCharacter, if_neg enabled, if_neg (by simp)]
  exact lineCharacter_eq (enabled_breakReception enabled) (by simp)

/-- A control character has its whole effect at once: a second one adds nothing. -/
theorem arriveCharacter_control_idem (enabled : (s.port p).state ≠ .disabled) :
    (s.arriveCharacter p .control).arriveCharacter p .control = s.arriveCharacter p .control := by
  have enabled' := enabled_breakReception enabled
  have first := arriveCharacter_control enabled
  have port := State.port_modPort_self (s.breakReception p) p (fun x => { x with idleCount := 0, watch := some 1 })
  have none : ((s.arriveCharacter p .control).port p).reception = .none := by
    rw [first, port]
    exact (lineKept_breakReception s p).reception rfl
  have stays : ((s.arriveCharacter p .control).port p).state ≠ .disabled := by
    rw [first, port]
    exact enabled'
  rw [State.arriveCharacter, if_neg stays, if_neg (by simp)]
  show ((s.arriveCharacter p .control).breakReception p).lineCharacter p false = _
  rw [breakReception_of_none none, lineCharacter_eq stays (by simp)]
  exact modPort_of_fixed (by rw [first, port]; rfl)

/-- R119: where no attempt waits for an answer, none does behind a control character. -/
theorem awaitsAnswer_arriveCharacter_control (receives : s.receives p = true) (none : s.awaitsAnswer p = false) :
    (s.arriveCharacter p .control).awaitsAnswer p = false := by
  have attempt : ((s.arriveCharacter p .control).port p).attempt = (s.port p).attempt
      ∨ ((s.arriveCharacter p .control).port p).attempt = .none := by
    rw [arriveCharacter_control (enabled_of_inService (inService_of_receives receives)), State.port_modPort_self]
    exact (lineKept_breakReception s p).attempt
  rw [State.awaitsAnswer, receives, Bool.true_and] at none
  refine Bool.and_eq_false_iff.mpr (.inr ?_)
  obtain same | ended := attempt
  · rw [same]
    exact none
  · rw [ended]

/-- The commands of an answer or a HOLD that arrives on port p, which its first, control character announces (R110). -/
inductive TellsControl (p : Port) : Instr → Prop
  | ack : TellsControl p (.ackReceived p)
  | nak (r : NakReason) : TellsControl p (.nakReceived p r)
  | stray (a : Answer) : TellsControl p (.strayAnswer p a)
  | hold (d : Byte) : TellsControl p (.holdReceived p d)

theorem breakOf_eq_some {c : Instr} {i : Interruption} (h : breakOf p c = some i) :
    (∃ k, c = .characterRecognised p k ∧ (Interruption.character k).breaks = true ∧ i = .character k)
      ∨ (c = .unrecognisedCharacter p ∧ i = .unrecognised) ∨ (c = .lossOfSignal p ∧ i = .lossOfSignal)
      ∨ (c = .idleRun p ∧ i = .character .idleMark) ∨ (TellsControl p c ∧ i = .character .control) := by
  unfold breakOf at h
  split at h <;> simp only [Option.ite_none_right_eq_some, Option.some.injEq, reduceCtorEq] at h
  · obtain ⟨⟨rfl, breaks⟩, rfl⟩ := h
    exact .inl ⟨_, rfl, breaks, rfl⟩
  · obtain ⟨rfl, rfl⟩ := h
    exact .inr (.inl ⟨rfl, rfl⟩)
  · obtain ⟨rfl, rfl⟩ := h
    exact .inr (.inr (.inl ⟨rfl, rfl⟩))
  · obtain ⟨rfl, rfl⟩ := h
    exact .inr (.inr (.inr (.inl ⟨rfl, rfl⟩)))
  · obtain ⟨rfl, rfl⟩ := h
    exact .inr (.inr (.inr (.inr ⟨.ack, rfl⟩)))
  · obtain ⟨rfl, rfl⟩ := h
    exact .inr (.inr (.inr (.inr ⟨.nak _, rfl⟩)))
  · obtain ⟨rfl, rfl⟩ := h
    exact .inr (.inr (.inr (.inr ⟨.stray _, rfl⟩)))
  · obtain ⟨rfl, rfl⟩ := h
    exact .inr (.inr (.inr (.inr ⟨.hold _, rfl⟩)))

/-- R115: the command c brings the 16th idle mark, or tells of the idle run as a whole. -/
def State.completesRun (s : State) (p : Port) (c : Instr) : Bool :=
  decide (c = .idleRun p ∨ (c = .characterRecognised p .idleMark ∧ 15 ≤ (s.port p).idleCount))

/-- A command of a single arrival that breaks a FRAME answers, then takes what broke it. -/
theorem arrived_here {c : Instr} {i : Interruption} (h : s.breaksHere p c i)
    (plain : i ≠ .character .control ∨ c = .characterRecognised p .control) :
    ∃ u t, exec c s = .next t ∧ FrameFails s p u ∧ Arrived p i (s.completesRun p c) (u.badFrame p) t := by
  obtain ⟨brings, validates, taking, watched, -⟩ := h
  have ⟨run, receives, _⟩ := validates
  have enabled := enabled_of_inService (inService_of_receives receives)
  have failing := frameFails_broken validates
  have broken : s.breakReception p = (s.setReception p .none).badFrame p := if_pos (by simp [taking, receives])
  have count : (((s.setReception p .none).badFrame p).port p).idleCount = (s.port p).idleCount := by
    rw [(lineKept_badFrame _ _).idleCount, port_setReception]
  obtain ⟨k, rfl, breaks, rfl⟩ | ⟨rfl, rfl⟩ | ⟨rfl, rfl⟩ | ⟨rfl, rfl⟩ | ⟨tells, rfl⟩ := breakOf_eq_some brings
  · refine ⟨_, _, running_of_notReset run (·.arriveCharacter p k), failing, ?_⟩
    have arrived := arrived_character_or_run failing.frameEnded breaks
    have reads : s.completesRun p (.characterRecognised p k) = decide (k = .idleMark ∧ 15 ≤ (s.port p).idleCount) := by
      simp [State.completesRun]
    rwa [arriveCharacter_breaks enabled breaks, broken, reads, ← count]
  · refine ⟨_, _, running_of_notReset run (·.arriveUnrecognised p), failing, ?_⟩
    rw [arriveUnrecognised_breaks enabled, broken]
    exact arrived_unrecognised failing.frameEnded
  · obtain ⟨left, watch⟩ := Option.ne_none_iff_exists'.mp (watched rfl)
    have failing := frameFails_elapsed validates left
    refine ⟨_, _, running_of_notReset run (·.arriveLoss p), failing, ?_⟩
    have broken : (s.elapse left).breakReception p = ((s.elapse left).setReception p .none).badFrame p := by
      refine if_pos ?_
      rw [State.receives, State.port_elapse]
      exact Bool.and_eq_true_iff.mpr ⟨taking, receives⟩
    rw [arriveLoss_of_watched enabled watch, broken]
    exact arrived_lineLoss failing.frameEnded
  · refine ⟨_, _, running_of_notReset run (·.arriveIdleRun p), failing, ?_⟩
    have reads : s.completesRun p (.idleRun p) = true := by simp [State.completesRun]
    rw [arriveIdleRun_breaks enabled, broken, reads]
    exact arrived_idleRun failing.frameEnded
  · obtain other | rfl := plain
    · exact absurd rfl other
    · exact nomatch tells

/-- Behind its control character the command of an answer or of a HOLD does what it does at once, that character being idle. -/
theorem exec_tellsControl {c : Instr} (run : s.resetAsserted = false) (receives : s.receives p = true)
    (stray : (∃ a, c = .strayAnswer p a) → s.awaitsAnswer p = false) (tells : TellsControl p c) :
    exec c s = exec c (s.arriveCharacter p .control) := by
  have run' : (s.arriveCharacter p .control).resetAsserted = false := (keeps_arriveCharacter s p .control).resetAsserted.trans run
  have same := arriveCharacter_control_idem (enabled_of_inService (inService_of_receives receives))
  cases tells with
  | ack =>
    refine (running_of_notReset run (·.ackReceived p)).trans
      (Eq.trans ?_ (running_of_notReset run' (·.ackReceived p)).symm)
    simp only [State.ackReceived, same]
  | nak r =>
    refine (running_of_notReset run (·.nakReceived p r)).trans
      (Eq.trans ?_ (running_of_notReset run' (·.nakReceived p r)).symm)
    simp only [State.nakReceived, same]
  | stray a =>
    have before := stray ⟨a, rfl⟩
    have behind := awaitsAnswer_arriveCharacter_control receives before
    refine (running_of_notReset run (·.strayAnswer p)).trans
      (Eq.trans ?_ (running_of_notReset run' (·.strayAnswer p)).symm)
    simp [State.strayAnswer, before, behind, same]
  | hold d =>
    refine (running_of_notReset run (·.holdReceived p d)).trans
      (Eq.trans ?_ (running_of_notReset run' (·.holdReceived p d)).symm)
    simp only [State.holdReceived, same]

/-! ### The answer below the score's cap (R111, R121, R122) -/

/-- From s to t a NAK CHECK was answered for a bad frame on port p, with its count and its part of the score. -/
structure NakChecked (s : State) (p : Port) (t : State) : Prop where
  pool : t.pool = s.pool
  mgmt : t.mgmt = s.mgmt
  control : (t.port p).control = (s.port p).control ++ [.answer (.nak .check)]
  score : (t.port p).score = (s.port p).score + 4
  counters : (t.port p).counters = { (s.port p).counters with rxCheck := (s.port p).counters.rxCheck + 1 }
  awaiting : (t.port p).awaiting = (s.port p).awaiting

theorem NakChecked.onlyLine {t u : State} (h : NakChecked s p t) (k : OnlyLine p t u) : NakChecked s p u :=
  ⟨k.pool.trans h.pool, k.mgmt.trans h.mgmt, k.port.control.trans h.control, k.port.score.trans h.score,
    k.port.counters.trans h.counters, k.port.awaiting.trans h.awaiting⟩

/-- R122: the flags of an answer that leaves the score below its cap. -/
def checkFlags (s : State) (p : Port) (f : Flag) : Prop :=
  f = .rise (.warn p) ∧ (s.port p).score < 96 ∧ 96 ≤ (s.port p).score + 4

section
variable {u : State}

theorem FrameFails.answered (h : FrameFails s p u) : (u.checkAnswered p).port p = { u.port p with
    control := (s.port p).control ++ [.answer (.nak .check)]
    counters := { (s.port p).counters with rxCheck := (s.port p).counters.rxCheck + 1 } } := by
  rw [port_checkAnswered, h.port.control, h.port.counters]

theorem FrameFails.badFrame_below (h : FrameFails s p u) (below : (s.port p).score + 4 < 255) : u.badFrame p
    = ((u.checkAnswered p).modPort p (fun x => { x with score := x.score + 4 })).judge (.warn p)
      ((u.checkAnswered p).levelHolds (.warn p)) := by
  rw [badFrame_eq, raiseScore_below (by rw [h.answered]; exact h.serves)]
  rw [h.answered]
  exact h.port.score.symm ▸ below

theorem FrameFails.port_badFrame_below (h : FrameFails s p u) (below : (s.port p).score + 4 < 255) :
    (u.badFrame p).port p = { u.port p with
      control := (s.port p).control ++ [.answer (.nak .check)]
      score := (s.port p).score + 4
      counters := { (s.port p).counters with rxCheck := (s.port p).counters.rxCheck + 1 } } := by
  rw [h.badFrame_below below, (onlyFlags_judge _ _ _).port, State.port_modPort_self, h.answered, h.port.score]

theorem FrameFails.nakChecked (h : FrameFails s p u) (below : (s.port p).score + 4 < 255) : NakChecked s p (u.badFrame p) := by
  have port := h.port_badFrame_below below
  have judged := onlyFlags_judge ((u.checkAnswered p).modPort p (fun x => { x with score := x.score + 4 })) (.warn p)
    ((u.checkAnswered p).levelHolds (.warn p))
  rw [← h.badFrame_below below] at judged
  exact ⟨judged.pool.trans h.pool, judged.mgmt.trans h.mgmt, by rw [port], by rw [port], by rw [port],
    by rw [port]; exact h.port.awaiting⟩

theorem FrameFails.flags (h : FrameFails s p u) (below : (s.port p).score + 4 < 255) :
    FlagsBecome s (u.badFrame p) (checkFlags s p) := by
  have events : ((u.checkAnswered p).modPort p (fun x => { x with score := x.score + 4 })).events = s.events := h.events
  rw [h.badFrame_below below]
  refine flagsBecome_congr (flagsBecome_judgeAfter events _ _) fun f => ?_
  simp only [State.levelHolds, State.port_modPort_self, h.answered, h.port.score, checkFlags, Config.warnScore,
    decide_eq_true_eq, decide_eq_false_iff_not, Nat.not_le]
  have falls : ¬ (96 ≤ (s.port p).score ∧ (s.port p).score + 4 < 96) := by omega
  simp [falls]

theorem FrameFails.receives_badFrame (h : FrameFails s p u) (below : (s.port p).score + 4 < 255) :
    (u.badFrame p).receives p = true := by
  rw [State.receives, h.port_badFrame_below below]
  exact Bool.and_eq_true_iff.mpr ⟨h.serves, h.up⟩

/-- The answer below the cap, with the arrival of what broke the FRAME behind it. -/
theorem Arrived.flags_below {i : Interruption} {ran : Bool} {t : State} (arrived : Arrived p i ran (u.badFrame p) t)
    (h : FrameFails s p u) (below : (s.port p).score + 4 < 255) :
    FlagsBecome s t (fun f => checkFlags s p f ∨ (f = .fall (.linkUp p) ∧ i = .lossOfSignal)) :=
  flagsBecome_trans (h.flags below) arrived.flags

theorem Arrived.reception_below {i : Interruption} {ran : Bool} {t : State} (arrived : Arrived p i ran (u.badFrame p) t)
    (h : FrameFails s p u) (below : (s.port p).score + 4 < 255) :
    (t.port p).reception = if i = .character .start then .taking [] 0 else .none := by
  rw [arrived.reception, h.receives_badFrame below]
  rfl

end

end

end Sys2Proof.Machine

open Sys2Proof Sys2Proof.Machine

/-- Settles O9: each command answers the bad frame, and what broke the FRAME is a turn of the port's line behind the answer. -/
theorem badAndBrokenFramesAnsweredNakCheck : Obligations.BadAndBrokenFramesAnsweredNakCheck := by
  refine ⟨fun s p chars validates bad below => ⟨_, exec_frameReceived_bad validates bad, ?_⟩,
    fun s p i breaks validates below => ⟨_, exec_brokenFrame validates breaks, ?_⟩,
    fun s p c i here plain below => ?_, fun s p c here => ?_⟩
  · have failing := frameFails_frameOver validates
    have checked := failing.nakChecked below
    exact ⟨checked.pool, checked.mgmt, checked.control, checked.score, checked.counters, failing.frameEnded.reception,
      checked.awaiting, failing.flags below⟩
  · have failing := frameFails_frameOver validates
    have arrived := arrived_brokenFrame validates breaks
    have checked := (failing.nakChecked below).onlyLine arrived.toOnlyLine
    have count : (((s.frameOver p).badFrame p).port p).idleCount = 0 := by
      rw [(lineKept_badFrame _ _).idleCount, port_frameOver]
    refine ⟨checked.pool, checked.mgmt, checked.control, checked.score, checked.counters, arrived.reception_below failing below,
      ?_, arrived.linkUp, arrived.flags_below failing below⟩
    rw [arrived.idleCount rfl, count]
  · obtain ⟨u, t, ran, failing, arrived⟩ := arrived_here here plain
    have checked := (failing.nakChecked below).onlyLine arrived.toOnlyLine
    exact ⟨t, ran, checked.pool, checked.mgmt, checked.awaiting, checked.control, checked.score, checked.counters,
      arrived.reception_below failing below, arrived.linkUp, arrived.flags_below failing below⟩
  · obtain ⟨brings, ⟨run, receives, -⟩, -, -, stray⟩ := here
    have enabled := enabled_of_inService (inService_of_receives receives)
    refine ⟨_, running_of_notReset run (·.arriveCharacter p .control), ?_⟩
    obtain ⟨k, rfl, -, same⟩ | ⟨rfl, other⟩ | ⟨rfl, other⟩ | ⟨rfl, other⟩ | ⟨tells, -⟩ := breakOf_eq_some brings
    · obtain rfl : k = .control := by simpa using same.symm
      have run' := (keeps_arriveCharacter s p .control).resetAsserted.trans run
      refine (running_of_notReset run (·.arriveCharacter p .control)).trans
        (Eq.trans ?_ (running_of_notReset run' (·.arriveCharacter p .control)).symm)
      exact congrArg Host.Outcome.next (arriveCharacter_control_idem enabled).symm
    · exact nomatch other
    · exact nomatch other
    · simp at other
    · exact exec_tellsControl run receives stray tells
end

section
/-! A good frame admitted (R97, R100, R101): what the admission makes of the buffer, the port and the flags, up to the judgement of
own HOLDING that ends it, and the statement about it. -/

namespace Sys2Proof.Machine
open Sys2Proof

/-! ### The buffer taken (R97, R165) -/

/-- R96: where buffers are free, a free one is found. -/
theorem exists_firstFree {s : State} (free : 0 < s.freeCount) : ∃ b, s.firstFree = some b := by
  obtain ⟨x, mem, unheld⟩ := List.countP_pos_iff.mp free
  obtain ⟨i, bound, rfl⟩ := List.getElem_of_mem mem
  refine Option.isSome_iff_exists.mp (List.find?_isSome.mpr ⟨⟨i, by simpa using bound⟩, List.mem_finRange _, ?_⟩)
  simpa [State.buffer, look] using unheld

/-- R121, R122: a port in service whose score falls. -/
theorem lowerScore_eq {s : State} {p : Port} (serves : (s.port p).state.inService = true) : s.lowerScore p
    = (s.modPort p (fun x => { x with score := x.score - 1 })).judge (.warn p) (s.levelHolds (.warn p)) := if_pos serves

theorem flagsBecome_lowerScore {s : State} {p : Port} (serves : (s.port p).state.inService = true) :
    FlagsBecome s (s.lowerScore p) (fun f => f = .fall (.warn p) ∧ (s.port p).score = 96) := by
  rw [lowerScore_eq serves]
  refine flagsBecome_congr (flagsBecome_judgeAfter rfl _ _) fun f => ?_
  simp only [State.levelHolds, State.port_modPort_self, decide_eq_true_eq, decide_eq_false_iff_not, Nat.not_le]
  have mark : Config.warnScore = 96 := rfl
  have rises : ¬ ((s.port p).score < Config.warnScore ∧ Config.warnScore ≤ (s.port p).score - 1) := by omega
  have falls : Config.warnScore ≤ (s.port p).score ∧ (s.port p).score - 1 < Config.warnScore ↔ (s.port p).score = 96 := by omega
  simp [rises, falls]

theorem port_frameOver_ne (s : State) {p q : Port} (other : p ≠ q) : (s.frameOver p).port q = s.port q := by
  simp [State.frameOver, State.setReception, State.port_modPort, other]

/-! ### A judgement of own HOLDING, read at an earlier state (R103, R105) -/

section
variable {s t : State} {q : Port} (ownHold : (t.port q).ownHold = (s.port q).ownHold) (tables : t.tables = s.tables)
include ownHold tables

theorem holdBegins_of_same (n : Nat) : t.holdBegins q n ↔ s.holdBegins q n := by
  simp only [State.holdBegins, State.portRec, ownHold, tables]

theorem holdEnds_of_same (n : Nat) : t.holdEnds q n ↔ s.holdEnds q n := by
  simp only [State.holdEnds, State.portRec, ownHold, tables]

theorem holdJudged_of_same {u : State} {before : List Control} {n : Nat} (judged : HoldJudged t u q before n) :
    HoldJudged s u q before n := by
  simpa only [HoldJudged, State.holdBegins, State.holdEnds, State.portRec, ownHold, tables] using judged

end

theorem buffer_judgeHold (s : State) (p : Port) (b : BufIx) : (s.judgeHold p).buffer b = s.buffer b := by
  rw [State.buffer, pool_judgeHold]
  rfl

/-! ### The admission of a frame, in parts (R97) -/

/-- R97: a frame that passes the checks takes the buffer found. -/
theorem admission_admits {s : State} {p : Port} {b : BufIx} {image : List Byte} (payload : List Byte)
    (ready : ¬ s.refusesBusy p (Header.decode image).dst) (above : s.settings.reserve.toNat < s.freeCount)
    (room : s.occupancy p < (s.portRec p).quota.toNat) (free : s.firstFree = some b) :
    s.admission p image payload = s.admitFrame p b image payload ((Header.decode image).dst == s.settings.gsn) := by
  rw [admission_of_not_refusesBusy payload ready, if_neg (Nat.not_le.mpr above), if_neg (Nat.not_le.mpr room), free]


/-- What an admission makes of its port, before the judgement of own HOLDING. -/
def portAdmitted (x : PortSt) (awaits : List BufIx) : PortSt :=
  { x with
    control := x.control ++ [.answer .ack]
    counters := { x.counters with rxGood := x.counters.rxGood + 1 }
    score := x.score - 1
    awaiting := x.awaiting ++ awaits }

/-- The record of a buffer that takes a frame of port p. -/
abbrev State.frameBuffer (s : State) (p : Port) (image payload : List Byte) : Buffer := ⟨1, .port p, image, payload, s.timeBase⟩

/-- The buffer is taken, the ACK sent and the frame counted. -/
def State.ackSent (s : State) (p : Port) (b : BufIx) (image payload : List Byte) : State :=
  ((s.changeBuffer b (fun _ => s.frameBuffer p image payload)).pushControl p (.answer .ack)).modPortCount p
    (fun c => { c with rxGood := c.rxGood + 1 })

/-- An admission up to its judgement of own HOLDING. -/
def State.admitting (s : State) (p : Port) (b : BufIx) (image payload : List Byte) (m : Bool) : State :=
  ((s.ackSent p b image payload).lowerScore p).queueAdmitted p b m

section
variable {s : State} {p : Port} {b : BufIx} (image payload : List Byte) (m : Bool)

theorem admitFrame_eq : s.admitFrame p b image payload m = (s.admitting p b image payload m).judgeHold p := rfl

theorem port_ackSent : (s.ackSent p b image payload).port p = { s.port p with
    control := (s.port p).control ++ [.answer .ack]
    counters := { (s.port p).counters with rxGood := (s.port p).counters.rxGood + 1 } } := by
  have port : (s.changeBuffer b (fun _ => s.frameBuffer p image payload)).port p = s.port p :=
    (onlyFlags_judge _ _ _).port p
  simp [State.ackSent, State.modPortCount, State.pushControl, port]

theorem onlyFlags_ackSent_lowered (serves : (s.port p).state.inService = true) :
    OnlyFlags ((s.ackSent p b image payload).modPort p (fun x => { x with score := x.score - 1 }))
      ((s.ackSent p b image payload).lowerScore p) := by
  rw [lowerScore_eq (by rw [port_ackSent]; exact serves)]
  exact onlyFlags_judge _ _ _

theorem port_queueAdmitted (s : State) (p : Port) (b : BufIx) (m : Bool) : (s.queueAdmitted p b m).port p
    = { s.port p with awaiting := (s.port p).awaiting ++ if m then [] else [b] } := by
  unfold State.queueAdmitted
  cases m with
  | true =>
    rw [if_pos rfl, if_pos rfl, List.append_nil]
    rfl
  | false => simp

theorem port_queueAdmitted_ne (s : State) {p q : Port} (other : p ≠ q) (b : BufIx) (m : Bool) :
    (s.queueAdmitted p b m).port q = s.port q := by
  unfold State.queueAdmitted
  cases m with
  | true => rfl
  | false => simp [State.port_modPort, other]

/-- What joins a queue of the frame's own changes nothing else that is read behind it. -/
theorem queueAdmitted_rest (s : State) (p : Port) (b : BufIx) (m : Bool) : (s.queueAdmitted p b m).pool = s.pool
    ∧ (s.queueAdmitted p b m).tables = s.tables ∧ (s.queueAdmitted p b m).calls = s.calls
    ∧ (s.queueAdmitted p b m).events = s.events
    ∧ (s.queueAdmitted p b m).mgmt.queue = s.mgmt.queue ++ if m then [⟨p, b⟩] else [] := by
  unfold State.queueAdmitted
  cases m with
  | true => exact ⟨rfl, rfl, rfl, rfl, rfl⟩
  | false => exact ⟨rfl, rfl, rfl, rfl, (List.append_nil _).symm⟩

/-- R97: from s to t port p was given the frame in buffer b, and nothing else changed but flags. -/
structure FrameTaken (s : State) (p : Port) (b : BufIx) (image payload : List Byte) (m : Bool) (t : State) : Prop where
  port : t.port p = portAdmitted (s.port p) (if m then [] else [b])
  others : ∀ q, q ≠ p → t.port q = s.port q
  pool : t.pool = put s.pool b (s.frameBuffer p image payload)
  tables : t.tables = s.tables
  calls : t.calls = s.calls
  mgmtQueue : t.mgmt.queue = s.mgmt.queue ++ if m then [⟨p, b⟩] else []

theorem frameTaken_admitting (serves : (s.port p).state.inService = true) :
    FrameTaken s p b image payload m (s.admitting p b image payload m) := by
  have lowered := onlyFlags_ackSent_lowered (b := b) image payload serves
  have judged := onlyFlags_judge (s.modBuffer b (fun _ => s.frameBuffer p image payload)) .poolLow (s.levelHolds .poolLow)
  obtain ⟨pool, tables, calls, -, mgmtQueue⟩ := queueAdmitted_rest ((s.ackSent p b image payload).lowerScore p) p b m
  refine ⟨?_, fun q other => ?_, ?_, ?_, ?_, ?_⟩
  · refine (port_queueAdmitted _ p b m).trans ?_
    rw [lowered.port, State.port_modPort_self, port_ackSent]
    rfl
  · have kept : (s.ackSent p b image payload).port q = s.port q := by
      simp only [State.ackSent, State.modPortCount, State.pushControl, State.port_modPort, if_neg other.symm]
      exact judged.port q
    refine (port_queueAdmitted_ne _ other.symm b m).trans ?_
    rw [lowered.port, State.port_modPort, if_neg other.symm, kept]
  · exact pool.trans (lowered.pool.trans judged.pool)
  · exact tables.trans (lowered.tables.trans judged.tables)
  · exact calls.trans (lowered.calls.trans judged.calls)
  · refine mgmtQueue.trans ?_
    rw [lowered.mgmt]
    exact congrArg (·.queue ++ _) judged.mgmt

section
variable {t : State} {image payload m}

theorem FrameTaken.freeCount (h : FrameTaken s p b image payload m t) (free : s.firstFree = some b)
    (serves : (s.port p).state.inService = true) : t.freeCount + 1 = s.freeCount := by
  have count := freeCount_admitFrame free p image payload m
  rw [admitFrame_eq, State.freeCount, pool_judgeHold, (frameTaken_admitting image payload m serves).pool, ← h.pool] at count
  exact count

theorem FrameTaken.occupancy (h : FrameTaken s p b image payload m t) (free : s.firstFree = some b) :
    t.occupancy p = s.occupancy p + 1 := by
  have unheld : (look s.pool b).holds = 0 := holds_firstFree free
  rw [State.occupancy, h.pool, countP_put]
  simp [State.occupancy, unheld]

theorem FrameTaken.buffer_self (h : FrameTaken s p b image payload m t) :
    t.buffer b = s.frameBuffer p image payload := by
  rw [State.buffer, h.pool, look_put_self]

theorem FrameTaken.buffer_ne (h : FrameTaken s p b image payload m t) {c : BufIx} (other : c ≠ b) : t.buffer c = s.buffer c := by
  rw [State.buffer, h.pool, look_put_ne _ _ other.symm]
  rfl

end

/-- R165: the buffer taken can only begin POOL_LOW, and does so where it brings the free count down to the mark. -/
theorem flagsBecome_ackSent (free : s.firstFree = some b) (serves : (s.port p).state.inService = true) :
    FlagsBecome s (s.ackSent p b image payload) (fun f => f = .rise .poolLow ∧ s.freeCount = s.settings.lowMark.toNat + 1) := by
  have taken := (frameTaken_admitting image payload true serves).freeCount free serves
  have pool := (frameTaken_admitting (s := s) (b := b) image payload true serves).pool
  have low : (s.modBuffer b (fun _ => s.frameBuffer p image payload)).levelHolds .poolLow
      = decide (s.freeCount - 1 ≤ s.settings.lowMark.toNat) := by
    have count : (s.modBuffer b (fun _ => s.frameBuffer p image payload)).freeCount = s.freeCount - 1 := by
      rw [← taken, State.freeCount, State.freeCount, pool]
      rfl
    rw [State.levelHolds, count]
    rfl
  refine flagsBecome_congr (flagsBecome_judgeAfter (s := s)
    (u := s.modBuffer b (fun _ => s.frameBuffer p image payload)) rfl .poolLow (s.levelHolds .poolLow)) fun f => ?_
  rw [low]
  simp only [State.levelHolds, decide_eq_true_eq, decide_eq_false_iff_not]
  constructor
  · rintro (⟨rfl, above, below⟩ | ⟨-, below, above⟩)
    · exact ⟨rfl, by omega⟩
    · omega
  · rintro ⟨rfl, atMark⟩
    exact .inl ⟨rfl, by omega, by omega⟩

theorem flagsBecome_admitting (free : s.firstFree = some b) (serves : (s.port p).state.inService = true) :
    FlagsBecome s (s.admitting p b image payload m) (fun f => (f = .rise .poolLow ∧ s.freeCount = s.settings.lowMark.toNat + 1)
      ∨ (f = .fall (.warn p) ∧ (s.port p).score = 96)) := by
  have sent := port_ackSent (s := s) (p := p) (b := b) image payload
  have lowered := flagsBecome_lowerScore (s := s.ackSent p b image payload) (p := p) (by rw [sent]; exact serves)
  rw [sent] at lowered
  obtain ⟨-, -, -, events, -⟩ := queueAdmitted_rest ((s.ackSent p b image payload).lowerScore p) p b m
  refine flagsBecome_congr (flagsBecome_trans (flagsBecome_trans (flagsBecome_ackSent image payload free serves) lowered)
    (flagsBecome_ofEvents events)) fun f => ?_
  simp

end

/-- A good frame that passes the checks is taken, up to the judgement of own HOLDING that ends the act. -/
theorem exec_frameReceived_admitted {s : State} {p : Port} {chars : List Byte} {k : List Byte × Nat} {dst : Station}
    (validates : s.validatesFrame p) (collects : State.collected (s.port p).reception chars = k)
    (destined : (Header.decode (k.1.take 11)).dst = dst) (good : goodFrame k.1 k.2 = true) (ready : ¬ s.refusesBusy p dst)
    (above : s.settings.reserve.toNat < s.freeCount) (room : s.occupancy p < (s.portRec p).quota.toNat) :
    ∃ b w, exec (.frameReceived p chars) s = .next (w.judgeHold p) ∧ (s.buffer b).holds = 0
      ∧ FrameTaken (s.frameOver p) p b (k.1.take 11) ((k.1.drop 11).take (k.2 - 13)) (dst == s.settings.gsn) w
      ∧ w.freeCount + 1 = s.freeCount ∧ w.occupancy p = s.occupancy p + 1
      ∧ FlagsBecome s w (fun f => (f = .rise .poolLow ∧ s.freeCount = s.settings.lowMark.toNat + 1)
        ∨ (f = .fall (.warn p) ∧ (s.port p).score = 96)) := by
  subst destined
  obtain ⟨b, free⟩ := exists_firstFree (s := s.frameOver p) (Nat.lt_of_le_of_lt (Nat.zero_le _) above)
  have port := port_frameOver s p
  have serves : ((s.frameOver p).port p).state.inService = true := by
    rw [port]
    exact (served_of_validates validates).1
  have taken := frameTaken_admitting (b := b) (k.1.take 11) ((k.1.drop 11).take (k.2 - 13))
    ((Header.decode (k.1.take 11)).dst == s.settings.gsn) serves
  have flags := flagsBecome_admitting (k.1.take 11) ((k.1.drop 11).take (k.2 - 13))
    ((Header.decode (k.1.take 11)).dst == s.settings.gsn) free serves
  rw [port] at flags
  have ran := exec_frameReceived_good validates collects good
  rw [admission_admits _ (mt (refusesBusy_frameOver s p _).mp ready) above room free, admitFrame_eq] at ran
  exact ⟨b, _, ran, holds_firstFree free, taken, taken.freeCount free serves, taken.occupancy free, flags⟩

end Sys2Proof.Machine

open Sys2Proof Sys2Proof.Machine

/-- Settles O7: the frame passes the checks of admission, a free buffer takes it, and the port is judged for own HOLDING behind it. -/
theorem goodFrameIsAdmitted : Obligations.GoodFrameIsAdmitted := by
  intro s p chars validates k dst good ready above room
  obtain ⟨b, w, ran, unheld, taken, fewer, more, flags⟩ := exec_frameReceived_admitted validates rfl rfl good ready above room
  have admitted := taken.port
  rw [port_frameOver] at admitted
  have ownHold : (w.port p).ownHold = (s.port p).ownHold := by rw [admitted]; rfl
  have control : (w.port p).control = (s.port p).control ++ [.answer .ack] := by rw [admitted]; rfl
  have service : (w.port p).state.inService = true := by rw [admitted]; exact (served_of_validates validates).1
  have holding := onlyHolding_judgeHold w p
  have judged := holdJudged_of_same ownHold taken.tables (holdJudged_judgeHold service)
  rw [control, more] at judged
  have held := flagsBecome_judgeHold service
  simp only [holdBegins_of_same ownHold taken.tables, holdEnds_of_same ownHold taken.tables, more] at held
  obtain ⟨same, -⟩ := holding.ports p
  refine ⟨w.judgeHold p, b, ran, unheld, ?_, fun c other => ?_, ?_, ?_, judged,
    ?_, ?_, ?_, ?_, ?_, ?_, fun q => ?_, ?_, fun q other => ?_⟩
  · exact (buffer_judgeHold w p b).trans taken.buffer_self
  · rw [buffer_judgeHold, taken.buffer_ne other]
    rfl
  · rw [State.freeCount, pool_judgeHold]
    exact fewer
  · rw [State.occupancy, pool_judgeHold]
    exact more
  · refine flagsBecome_congr (flagsBecome_trans flags held) fun f => ?_
    simp only [or_assoc]
  · rw [same, admitted]
    rfl
  · rw [same, admitted]
    rfl
  · rw [same, admitted]
    rfl
  · rw [holding.mgmt, taken.mgmtQueue]
    simp only [beq_iff_eq]
    rfl
  · rw [same, admitted]
    simp only [beq_iff_eq]
    rfl
  · rw [holding.queue, State.queue, admitted]
    rfl
  · exact holding.calls.trans taken.calls
  · rw [port_judgeHold_ne other.symm, taken.others q other]
    exact port_frameOver_ne s other.symm

end

section
/-! The score at its cap (R121): the port's entry into ISOLATED from a bad frame and from a failed attempt, and the statement about
it. -/

namespace Sys2Proof.Machine
open Sys2Proof

/-! ### What the entry into ISOLATED leaves of a port (R88, R106, R109, R129, R130, R135) -/

/-- From s to t port p entered ISOLATED; its line and its counters are not told. -/
structure IsolatedFrom (s : State) (p : Port) (t : State) : Prop where
  state : (t.port p).state = .isolated
  score : (t.port p).score = 255
  sending : (t.port p).sending = sentOnLeaving .isolated (s.port p).sending
  awaiting : (t.port p).awaiting = (s.port p).awaiting
  returnState : (t.port p).returnState = if (s.port p).state = .forward then .forward else .listen
  quiet : (t.port p).quiet
  portDown : .portDown p ∈ t.wires.claims
  mgmtQueue : ∀ e ∈ t.mgmt.queue, e.port ≠ p
  isolated : t.flagged (.rise (.isolated p))
  holding : (s.port p).ownHold ≠ none → t.flagged (.fall (.holding p))

/-- What w still has of port p as it was in s, where w is the state in which the port leaves service. -/
structure StillServes (s : State) (p : Port) (w : State) : Prop where
  serves : (s.port p).state.inService = true
  state : (w.port p).state = (s.port p).state
  sending : (w.port p).sending = (s.port p).sending
  awaiting : (w.port p).awaiting = (s.port p).awaiting
  holding : (s.port p).ownHold ≠ none → (w.port p).ownHold ≠ none ∨ w.flagged (.fall (.holding p))

theorem symbolOutOfService_eq (target : PortState) (y : Symbol) : symbolOutOfService target y = sentOnLeaving target y := by
  cases y <;> rfl

theorem receptionClosed_eq (r : Reception) : receptionClosed r = passedOver r := by
  cases r <;> rfl

/-- R135: the return state of a port that leaves LISTEN or FORWARD. -/
theorem stateLeft_of_inService {x : PortSt} (serves : x.state.inService = true) :
    stateLeft x = if x.state = .forward then .forward else .listen := by
  unfold stateLeft
  cases state : x.state <;> simp [state, PortState.inService] at serves ⊢

theorem quiet_portLeft (target : PortState) (x : PortSt) : (portLeft target x).quiet := by
  refine ⟨?_, rfl, rfl, rfl, rfl, rfl⟩
  simp [PortSt.allEntries, portLeft, look]

/-- A flag set before a port leaves service stays set. -/
theorem flagged_leaveService_of_before {w : State} {f : Flag} (set : w.flagged f) (p : Port) (target : PortState) :
    (w.leaveService p target).flagged f :=
  flagged_leaveService w p target f ((onlyFlags_judgePort _ _ _).flagged f (flagged_settleDemands w p f set))

section
variable {s w : State} {p : Port}

theorem isolatedFrom_leaveService (h : StillServes s p w) : IsolatedFrom s p (w.leaveService p .isolated) := by
  have port := port_leaveService w p .isolated rfl
  have served : (w.port p).state.inService = true := by rw [h.state]; exact h.serves
  refine ⟨?_, ?_, ?_, ?_, ?_, ?_, ?_, fun e mem => ?_, flagged_leaveService_isolated served, fun holds => ?_⟩
  · rw [port]
    rfl
  · rw [port]
    rfl
  · rw [port, ← h.sending]
    exact symbolOutOfService_eq _ _
  · rw [port]
    exact h.awaiting
  · rw [port, ← h.state]
    exact stateLeft_of_inService served
  · rw [port]
    exact quiet_portLeft _ _
  · rw [claims_leaveService]
    simp
  · rw [mgmtQueue_leaveService] at mem
    simpa using (List.mem_filter.mp mem).2
  · obtain still | fell := h.holding holds
    · exact flagged_leaveService_holding still .isolated
    · exact flagged_leaveService_of_before fell p .isolated

theorem IsolatedFrom.onlyLine {t u : State} (h : IsolatedFrom s p t) (k : OnlyLine p t u)
    (flagged : ∀ f, t.flagged f → u.flagged f) : IsolatedFrom s p u where
  state := k.port.state.trans h.state
  score := k.port.score.trans h.score
  sending := k.port.sending.trans h.sending
  awaiting := k.port.awaiting.trans h.awaiting
  returnState := k.port.returnState.trans h.returnState
  quiet := k.port.quiet h.quiet
  portDown := by
    rw [k.claims]
    exact h.portDown
  mgmtQueue := by
    rw [k.mgmt]
    exact h.mgmtQueue
  isolated := flagged _ h.isolated
  holding := fun holds => flagged _ (h.holding holds)

end

/-! ### The work flushed, read at an earlier and at a later state (R88, R129) -/

/-- What a flush reads of an entry. -/
def QueueEntry.flushed (e : QueueEntry) : Option BufIx × Option Tag × Bool := (e.buffer, e.callTag, e.restartReply)

section
variable {s w t u : State} {p : Port}

theorem workFlushed_of_same {before : List Claim} {tags : List Tag} (entries : (w.port p).allEntries.map QueueEntry.flushed
    = (s.port p).allEntries.map QueueEntry.flushed) (pool : w.pool = s.pool) (mgmt : w.mgmt = s.mgmt)
    (claims : w.wires.claims = s.wires.claims) (h : WorkFlushed w t p before tags) : WorkFlushed s t p before tags := by
  obtain ⟨handed, queue, holds, restart⟩ := h
  have counted (b : BufIx) : (w.port p).allEntries.countP (fun e => e.buffer == some b)
      = (s.port p).allEntries.countP (fun e => e.buffer == some b) := by
    have count (l : List QueueEntry) : l.countP (fun e => e.buffer == some b)
        = (l.map QueueEntry.flushed).countP (fun x => x.1 == some b) := by
      rw [List.countP_map]
      rfl
    rw [count, count, entries]
  have carried (x : PortSt) : (∃ e ∈ x.allEntries, e.restartReply = true)
      ↔ ∃ y ∈ x.allEntries.map QueueEntry.flushed, y.2.2 = true := by
    simp [QueueEntry.flushed]
  refine ⟨by rw [handed, claims], by rw [queue, mgmt], fun b => ?_, fun r carries pending => ?_⟩
  · rw [holds, counted, mgmt, State.buffer, pool]
    rfl
  · refine restart r ?_ (by rw [mgmt]; exact pending)
    rw [carried, entries, ← carried]
    exact carries

theorem WorkFlushed.onlyLine {before : List Claim} {tags : List Tag} (h : WorkFlushed s t p before tags) (k : OnlyLine p t u) :
    WorkFlushed s u p before tags := by
  unfold WorkFlushed State.buffer at *
  rwa [k.claims, k.mgmt, k.pool]

theorem callTags_of_flushed {l m : List QueueEntry} (same : l.map QueueEntry.flushed = m.map QueueEntry.flushed) :
    l.filterMap QueueEntry.callTag = m.filterMap QueueEntry.callTag := by
  have read (l : List QueueEntry) : l.filterMap QueueEntry.callTag = (l.map QueueEntry.flushed).filterMap (·.2.1) := by
    rw [List.filterMap_map]
    rfl
  rw [read, read, same]

end

/-! ### A bad frame at the cap (R111, R112, R121) -/

/-- The command c, begun in s, answers a bad frame of port p at u and ends in t, behind the line's part; with what the line then has
of a port that became ISOLATED. -/
structure CheckEnds (s : State) (p : Port) (c : Instr) (u t : State) : Prop extends FrameFails s p u where
  ran : exec c s = .next t
  noExpiry : c ≠ .ackWindowExpiry p
  after : OnlyLine p (u.badFrame p) t
  flagged : ∀ f, (u.badFrame p).flagged f → t.flagged f
  receptionEnds : ((u.badFrame p).port p).state = .isolated → (t.port p).reception
    = if c = .characterRecognised p .start ∨ c = .brokenFrame p (.character .start) then .passingOver else .none
  link : (t.port p).linkUp = false ↔ c = .lossOfSignal p ∨ c = .brokenFrame p .lossOfSignal
  tally : ((u.badFrame p).port p).state = .isolated → (t.port p).recoveryTally = if s.completesRun p c then 1 else 0

section
variable {s : State} {p : Port}

/-- A bad frame that nothing broke. -/
theorem checkEnds_of_bad {c : Instr} {u : State} (fails : FrameFails s p u) (ran : exec c s = .next (u.badFrame p))
    (ends : (∃ chars, c = .frameReceived p chars) ∨ c = .characterRecognised p .endChar) : CheckEnds s p c u (u.badFrame p) := by
  have ended := fails.frameEnded
  refine ⟨fails, ran, ?_, .refl p _, fun _ set => set, fun _ => ended.reception.trans ?_, ?_,
    fun isolated => (ended.tally isolated).trans ?_⟩
  all_goals obtain ⟨chars, rfl⟩ | rfl := ends <;> simp [State.completesRun, ended.up]

/-- A FRAME broken by i, which the command c tells. -/
theorem checkEnds_of_arrived {c : Instr} {i : Interruption} {u t : State} (fails : FrameFails s p u) (ran : exec c s = .next t)
    (arrived : Arrived p i (s.completesRun p c) (u.badFrame p) t) (noExpiry : c ≠ .ackWindowExpiry p)
    (starts : i = .character .start ↔ c = .characterRecognised p .start ∨ c = .brokenFrame p (.character .start))
    (loses : i = .lossOfSignal ↔ c = .lossOfSignal p ∨ c = .brokenFrame p .lossOfSignal) : CheckEnds s p c u t where
  toFrameFails := fails
  ran := ran
  noExpiry := noExpiry
  after := arrived.toOnlyLine
  flagged := fun f set => (arrived.flags f).mpr (.inl set)
  receptionEnds := fun isolated => by
    have deaf : (u.badFrame p).receives p = false := by rw [State.receives, isolated]; rfl
    rw [arrived.reception, deaf]
    simp [starts]
  link := by
    rw [arrived.linkUp, ← loses]
    simp
  tally := arrived.tally

theorem checkEnds_here {c : Instr} {i : Interruption} (h : s.breaksHere p c i)
    (plain : i ≠ .character .control ∨ c = .characterRecognised p .control) : ∃ u t, CheckEnds s p c u t := by
  obtain ⟨u, t, ran, fails, arrived⟩ := arrived_here h plain
  refine ⟨u, t, checkEnds_of_arrived fails ran arrived ?_ ?_ ?_⟩
  all_goals
    obtain ⟨k, rfl, -, rfl⟩ | ⟨rfl, rfl⟩ | ⟨rfl, rfl⟩ | ⟨rfl, rfl⟩ | ⟨tells, rfl⟩ := breakOf_eq_some h.1
    · simp
    · simp
    · simp
    · simp
    · cases tells <;> simp

theorem checkEnds_broken {i : Interruption} (breaks : i.breaks = true) (h : s.validatesFrame p) :
    ∃ u t, CheckEnds s p (.brokenFrame p i) u t := by
  have arrived := arrived_brokenFrame h breaks
  rw [show false = s.completesRun p (.brokenFrame p i) by simp [State.completesRun]] at arrived
  exact ⟨_, _, checkEnds_of_arrived (frameFails_frameOver h) (exec_brokenFrame h breaks) arrived (by simp) (by simp) (by simp)⟩

/-- An answer or a HOLD on a port that does not receive does nothing behind its control character (R114). -/
theorem exec_tellsControl_deaf {c : Instr} (deaf : s.receives p = false)
    (told : s.arriveCharacter p .control = s) (tells : TellsControl p c) : exec c s = .next s := by
  have none : s.awaitsAnswer p = false := by rw [State.awaitsAnswer, deaf, Bool.false_and]
  cases tells with
  | ack =>
    refine running_of_fixed (f := (·.ackReceived p)) ?_
    simp [State.ackReceived, told, none]
  | nak r =>
    refine running_of_fixed (f := (·.nakReceived p r)) ?_
    simp [State.nakReceived, told, none]
  | stray a =>
    refine running_of_fixed (f := (·.strayAnswer p)) ?_
    simp [State.strayAnswer, told]
  | hold d =>
    refine running_of_fixed (f := (·.holdReceived p d)) ?_
    simp [State.holdReceived, told, deaf]

/-! At the cap the answer is the entry into ISOLATED. -/

section
variable {u : State} (h : FrameFails s p u) (reached : 255 ≤ (s.port p).score + 4)
include h reached

theorem FrameFails.badFrame_atCap : u.badFrame p = (u.checkAnswered p).leaveService p .isolated := by
  rw [badFrame_eq, raiseScore_atCap]
  · rw [h.answered]
    exact h.serves
  · rw [h.answered]
    exact h.port.score.symm ▸ reached

theorem FrameFails.port_badFrame_atCap : (u.badFrame p).port p = portLeft .isolated { u.port p with
    control := (s.port p).control ++ [.answer (.nak .check)]
    counters := { (s.port p).counters with rxCheck := (s.port p).counters.rxCheck + 1 } } := by
  rw [h.badFrame_atCap reached, port_leaveService _ p .isolated rfl, h.answered]

theorem FrameFails.isolatedFrom : IsolatedFrom s p (u.badFrame p) := by
  have answered := h.answered
  rw [h.badFrame_atCap reached]
  refine isolatedFrom_leaveService ⟨?_, ?_, ?_, ?_, fun holds => .inl ?_⟩
  · rw [← h.port.state]
    exact h.serves
  all_goals rw [answered]
  · exact h.port.state
  · exact h.port.sending
  · exact h.port.awaiting
  · exact fun ends => holds (h.port.ownHold ends)

theorem FrameFails.workFlushed (none : ∀ d ∈ s.wires.claims, d.isLeaving p = false) :
    WorkFlushed s (u.badFrame p) p [] ((s.port p).allEntries.filterMap QueueEntry.callTag) := by
  have entries : ((u.checkAnswered p).port p).allEntries = (s.port p).allEntries := by
    rw [h.answered]
    exact h.port.allEntries
  have claims : (u.checkAnswered p).wires.claims = s.wires.claims := h.claims
  have flushed := workFlushed_leaveService (s := u.checkAnswered p) (p := p) (by rwa [claims]) .isolated
  rw [entries, ← h.badFrame_atCap reached] at flushed
  exact workFlushed_of_same (w := u.checkAnswered p) (by rw [entries]) h.pool h.mgmt claims flushed

end

/-- An answer or a HOLD breaks the FRAME with its control character, and finds the port ISOLATED. -/
theorem checkEnds_tells {c : Instr} (h : s.breaksHere p c (.character .control)) (reached : 255 ≤ (s.port p).score + 4)
    (tells : TellsControl p c) : ∃ u t, CheckEnds s p c u t := by
  obtain ⟨-, validates, taking, -, stray⟩ := h
  have ⟨run, receives, _⟩ := validates
  have first : s.breaksHere p (.characterRecognised p .control) (.character .control) :=
    ⟨by simp [breakOf, Interruption.breaks], validates, taking, nofun, nofun⟩
  obtain ⟨u, t, ends⟩ := checkEnds_here first (.inr rfl)
  obtain rfl : s.arriveCharacter p .control = t :=
    Host.Outcome.next.inj ((running_of_notReset run (·.arriveCharacter p .control)).symm.trans ends.ran)
  have isolated := (ends.isolatedFrom reached).state
  have deaf : (s.arriveCharacter p .control).receives p = false := by
    rw [State.receives, ends.after.port.state, isolated]
    rfl
  have told := arriveCharacter_control_idem (enabled_of_inService (inService_of_receives receives))
  have ran := (exec_tellsControl run receives stray tells).trans (exec_tellsControl_deaf deaf told tells)
  refine ⟨u, _, ends.toFrameFails, ran, ?_, ends.after, ends.flagged, fun left => (ends.receptionEnds left).trans ?_,
    ends.link.trans ?_, fun left => (ends.tally left).trans ?_⟩
  all_goals cases tells <;> simp [State.completesRun]

/-- Every command that a bad or a broken frame raises the score in. -/
theorem checkEnds_of_raisesScore {c : Instr} (h : RaisesScore s p c 4) (reached : 255 ≤ (s.port p).score + 4) :
    ∃ u t, CheckEnds s p c u t := by
  cases h with
  | badFrame chars validates bad =>
    exact ⟨_, _, checkEnds_of_bad (frameFails_frameOver validates) (exec_frameReceived_bad validates bad) (.inl ⟨chars, rfl⟩)⟩
  | brokenFrame i breaks validates => exact checkEnds_broken breaks validates
  | badEnd validates taking bad =>
    have ran : exec (.characterRecognised p .endChar) s = exec (.frameReceived p []) s := by
      have same := arriveCharacter_ends (enabled_of_inService (served_of_validates validates).1) taking
      show running (·.arriveCharacter p .endChar) s = running (·.arriveFrame p []) s
      unfold running
      dsimp only
      rw [same]
    exact ⟨_, _, checkEnds_of_bad (frameFails_frameOver validates) (ran.trans (exec_frameReceived_bad validates bad)) (.inr rfl)⟩
  | brokenHere c i here =>
    obtain ⟨k, rfl, -, rfl⟩ | ⟨rfl, rfl⟩ | ⟨rfl, rfl⟩ | ⟨rfl, rfl⟩ | ⟨tells, rfl⟩ := breakOf_eq_some here.1
    · refine checkEnds_here here ?_
      by_cases control : k = .control
      · exact .inr (by rw [control])
      · exact .inl (by simpa using control)
    · exact checkEnds_here here (.inl (by simp))
    · exact checkEnds_here here (.inl (by simp))
    · exact checkEnds_here here (.inl (by simp))
    · exact checkEnds_tells here reached tells

end

/-! ### A failed attempt (R81 to R83) -/

/-- The command c, begun in s, fails port p's attempt on the head of queue q at u, behind the line's part. -/
structure AttemptFails (s : State) (p : Port) (q : QueueId) (c : Instr) (u : State) : Prop extends OnlyLine p s u where
  ran : exec c s = .next ((u.completeFailure p).raiseScore p 8)
  attempt : ∃ a, (u.port p).attempt = some a ∧ a.queue = q
  serves : (u.port p).state.inService = true
  link : (u.port p).linkUp = (s.port p).linkUp
  tables : u.tables = s.tables
  reception : (u.port p).reception = if c = .ackWindowExpiry p then (s.port p).reception else .none

theorem attemptFails_of_failsAttempt {s : State} {p : Port} {q : QueueId} {e : QueueEntry} {es : List QueueEntry} {c : Instr}
    (run : s.resetAsserted = false) (h : FailsAttempt s p q e es c 8) :
    s.queue p q = e :: es ∧ (∃ u, AttemptFails s p q c u)
      ∧ (c = .ackWindowExpiry p ∨ c = .nakReceived p .check) := by
  cases h with
  | nakCheck completes =>
    obtain ⟨receives, idle, ⟨a, left, trying, on, waits⟩, front⟩ := completes
    have enabled := enabled_of_inService (inService_of_receives receives)
    have turned := lineTurned_arriveCharacter (c := .control) enabled (by simp) (by simp) (.inl idle)
    have kept := keeps_arriveCharacter s p .control
    have awaits : (s.arriveCharacter p .control).awaitsAnswer p = true := by
      rw [State.awaitsAnswer, State.receives, turned.port]
      simpa [trying, waits, State.receives] using receives
    refine ⟨front, ⟨s.arriveCharacter p .control, turned.onlyLine (.line ..), ?_, ?_, ?_, ?_, kept.tables, ?_⟩, .inr rfl⟩
    · refine (running_of_notReset run (·.nakReceived p .check)).trans (congrArg Host.Outcome.next ?_)
      exact if_pos awaits
    all_goals rw [turned.port]
    · exact ⟨a, trying, on⟩
    · exact inService_of_receives receives
    · simp [receptionAfter]
  | windowRanOut a left serves trying on waits front =>
    have port := State.port_elapse s left p
    refine ⟨front, ⟨s.elapse left, onlyLine_elapse p s left, ?_, ?_, ?_, ?_, rfl, ?_⟩, .inl rfl⟩
    · refine (running_of_notReset run (·.ackWindowExpiry p)).trans (congrArg Host.Outcome.next ?_)
      rw [State.ackWindowExpiry, trying]
      dsimp only
      rw [waits]
      rfl
    all_goals rw [port]
    · refine ⟨attemptAfter left a, congrArg (Option.map (attemptAfter left)) trying, ?_⟩
      rw [attemptAfter, waits]
      exact on
    · exact serves
    · rfl
    · simp

/-- R82: the entry of a failed attempt is dropped. -/
def QueueEntry.dropsAt (e : QueueEntry) (retry : Byte) : Prop :=
  e.oneShot = true ∨ e.noRetry ≠ .none ∨ retry.toNat < e.attempts + 1

theorem dropsAfterFailure_iff (e : QueueEntry) (retry : Byte) :
    dropsAfterFailure e (e.attempts + 1) retry = true ↔ e.dropsAt retry := by
  simp [dropsAfterFailure, QueueEntry.dropsAt, or_assoc]

/-- The attempt of port p is over, and counted a failure. -/
def State.failureCounted (s : State) (p : Port) : State :=
  (s.endAttempt p).modPortCount p (fun c => { c with txFail := c.txFail + 1 })

/-- An entry whose attempt failed, kept (R81). -/
def QueueEntry.failed (e : QueueEntry) : QueueEntry := { e with inTransmission := false, attempts := e.attempts + 1 }

/-- R82, R83: the head e of queue q leaves, with its drop counted and claimed. -/
def State.headDropped (s : State) (p : Port) (q : QueueId) (e : QueueEntry) (es : List QueueEntry) : State :=
  (((s.setQueue p q es).entryLeft e).modPortCount p (fun c => { c with txDropped := c.txDropped + 1 })).claimFor e
    (fun tag => .undeliverable p tag (e.noRetry == .abort))

section
variable {s u : State} {p : Port} {q : QueueId} {e : QueueEntry} {es : List QueueEntry} {c : Instr}

theorem completeFailure_eq {a : Attempt} (trying : (s.port p).attempt = some a) (on : a.queue = q) (front : s.queue p q = e :: es) :
    s.completeFailure p = if dropsAfterFailure e (e.attempts + 1) (s.portRec p).retry then (s.failureCounted p).headDropped p q e es
      else (s.failureCounted p).setQueue p q (e.failed :: es) := by
  subst on
  rw [State.completeFailure, trying]
  dsimp only
  rw [front]
  rfl

theorem AttemptFails.front (h : AttemptFails s p q c u) (front : s.queue p q = e :: es) : u.queue p q = e :: es :=
  (queue_of_lists h.port.data h.port.gq h.port.mq q).trans front

theorem AttemptFails.kept (h : AttemptFails s p q c u) (front : s.queue p q = e :: es) (stays : ¬ e.dropsAt (s.portRec p).retry) :
    u.completeFailure p = (u.failureCounted p).setQueue p q (e.failed :: es) := by
  obtain ⟨a, trying, on⟩ := h.attempt
  rw [completeFailure_eq trying on (h.front front), State.portRec_of_tables h.tables, if_neg]
  exact mt (dropsAfterFailure_iff e _).mp stays

theorem AttemptFails.dropped (h : AttemptFails s p q c u) (front : s.queue p q = e :: es) (drops : e.dropsAt (s.portRec p).retry) :
    u.completeFailure p = (u.failureCounted p).headDropped p q e es := by
  obtain ⟨a, trying, on⟩ := h.attempt
  rw [completeFailure_eq trying on (h.front front), State.portRec_of_tables h.tables, if_pos]
  exact (dropsAfterFailure_iff e _).mpr drops

/-! ### What a failure leaves of its port -/

theorem port_failureCounted (s : State) (p : Port) : (s.failureCounted p).port p = { s.port p with
    attempt := none
    counters := { (s.port p).counters with txFail := (s.port p).counters.txFail + 1 } } := by
  simp [State.failureCounted, State.endAttempt, State.modPortCount]

theorem port_setQueue_self (s : State) (p : Port) (q : QueueId) (es : List QueueEntry) :
    (s.setQueue p q es).port p = (s.port p).setQueue q es := State.port_modPort_self _ _ _

theorem claimFor_rest (s : State) (e : QueueEntry) (f : Tag → Claim) : (s.claimFor e f).ports = s.ports
    ∧ (s.claimFor e f).pool = s.pool ∧ (s.claimFor e f).mgmt = s.mgmt ∧ (s.claimFor e f).events = s.events
    ∧ (s.claimFor e f).wires.claims = s.wires.claims ++ (e.callTag.map f).toList := by
  unfold State.claimFor
  cases e.callTag with
  | none => exact ⟨rfl, rfl, rfl, rfl, (List.append_nil _).symm⟩
  | some tag => exact ⟨rfl, rfl, rfl, rfl, rfl⟩

/-- From u to w the attempt of port p was over as a failure: what stays of the port, and what is counted of the failure. -/
structure FailureOver (p : Port) (u w : State) : Prop where
  state : (w.port p).state = (u.port p).state
  score : (w.port p).score = (u.port p).score
  linkUp : (w.port p).linkUp = (u.port p).linkUp
  reception : (w.port p).reception = (u.port p).reception
  sending : (w.port p).sending = (u.port p).sending
  awaiting : (w.port p).awaiting = (u.port p).awaiting
  counters : (w.port p).counters = { (u.port p).counters with
    txFail := (u.port p).counters.txFail + 1, txDropped := (w.port p).counters.txDropped }
  holding : (u.port p).ownHold ≠ none → (w.port p).ownHold ≠ none ∨ w.flagged (.fall (.holding p))

theorem failureOver_kept (u : State) (p : Port) (q : QueueId) (fs : List QueueEntry) :
    FailureOver p u ((u.failureCounted p).setQueue p q fs) := by
  have port := port_setQueue_self (u.failureCounted p) p q fs
  rw [port_failureCounted] at port
  constructor
  case holding => exact fun holds => .inl (by simpa [port] using holds)
  all_goals simp [port]

/-- Holds released behind it, with the judgements of own HOLDING they bring. -/
theorem FailureOver.released {w v : State} (h : FailureOver p u w) (k : OnlyReleases w v) : FailureOver p u v := by
  obtain ⟨same, -⟩ := k.ports p
  constructor
  case holding => exact fun holds => (h.holding holds).elim (k.falls p) fun fell => .inr (k.flagged _ fell)
  all_goals rw [same]
  · exact h.state
  · exact h.score
  · exact h.linkUp
  · exact h.reception
  · exact h.sending
  · exact h.awaiting
  · exact h.counters

theorem FailureOver.dropCounted {w : State} (h : FailureOver p u w) :
    FailureOver p u (w.modPortCount p (fun c => { c with txDropped := c.txDropped + 1 })) := by
  have port := State.port_modPort_self w p (fun x => { x with counters := { x.counters with txDropped := x.counters.txDropped + 1 } })
  constructor
  case holding => exact fun holds => (h.holding holds).imp_left fun still => by rw [State.modPortCount, port]; exact still
  all_goals rw [State.modPortCount, port]
  · exact h.state
  · exact h.score
  · exact h.linkUp
  · exact h.reception
  · exact h.sending
  · exact h.awaiting
  · dsimp only
    rw [h.counters]

theorem FailureOver.claimed {w : State} (h : FailureOver p u w) (e : QueueEntry) (f : Tag → Claim) :
    FailureOver p u (w.claimFor e f) := by
  obtain ⟨ports, -, -, events, -⟩ := claimFor_rest w e f
  have port := port_of_ports ports p
  constructor
  case holding =>
    rw [port, State.flagged, State.flagSet, events]
    exact h.holding
  all_goals rw [port]
  · exact h.state
  · exact h.score
  · exact h.linkUp
  · exact h.reception
  · exact h.sending
  · exact h.awaiting
  · exact h.counters

theorem failureOver_dropped (u : State) (p : Port) (q : QueueId) (e : QueueEntry) (es : List QueueEntry) :
    FailureOver p u ((u.failureCounted p).headDropped p q e es) :=
  (((failureOver_kept u p q es).released (onlyReleases_entryLeft _ e)).dropCounted).claimed e _

theorem AttemptFails.over (h : AttemptFails s p q c u) (front : s.queue p q = e :: es) : FailureOver p u (u.completeFailure p) := by
  by_cases drops : e.dropsAt (s.portRec p).retry
  · rw [h.dropped front drops]
    exact failureOver_dropped u p q e es
  · rw [h.kept front drops]
    exact failureOver_kept u p q _

/-- R81, R121: a failure that brings the score to its cap isolates its port, its entry being kept or dropped before. -/
theorem AttemptFails.ran_atCap (h : AttemptFails s p q c u) (front : s.queue p q = e :: es) (reached : 255 ≤ (s.port p).score + 8) :
    exec c s = .next ((u.completeFailure p).leaveService p .isolated) := by
  have done := h.over front
  rw [h.ran, raiseScore_atCap]
  · rw [done.state]
    exact h.serves
  · rw [done.score, h.port.score]
    exact reached

theorem AttemptFails.isolatedFrom (h : AttemptFails s p q c u) (front : s.queue p q = e :: es) :
    IsolatedFrom s p ((u.completeFailure p).leaveService p .isolated) := by
  have done := h.over front
  refine isolatedFrom_leaveService ⟨?_, done.state.trans h.port.state, done.sending.trans h.port.sending,
    done.awaiting.trans h.port.awaiting, fun holds => done.holding fun ends => holds (h.port.ownHold ends)⟩
  rw [← h.port.state]
  exact h.serves

/-! ### The flush behind a failure (R82, R83, R88) -/

/-- An entry at the head of its queue is the first of the port's entries, up to their order. -/
theorem perm_allEntries_head {x : PortSt} (front : x.queue q = e :: es) :
    x.allEntries.Perm (e :: (x.setQueue q es).allEntries) := by
  rw [List.perm_iff_count]
  intro f
  cases q with
  | data d =>
    fin_cases d <;> simp_all [PortSt.queue, PortSt.allEntries, PortSt.setQueue, List.count_cons] <;> omega
  | g =>
    simp_all [PortSt.queue, PortSt.allEntries, PortSt.setQueue, List.count_cons]
    omega
  | m =>
    simp_all [PortSt.queue, PortSt.allEntries, PortSt.setQueue, List.count_cons]
    omega

/-- A head exchanged for one that a flush reads alike. -/
theorem flushed_setQueue_head {x : PortSt} {f : QueueEntry} (front : x.queue q = e :: es) (same : f.flushed = e.flushed) :
    (x.setQueue q (f :: es)).allEntries.map QueueEntry.flushed = x.allEntries.map QueueEntry.flushed := by
  cases q with
  | data d => fin_cases d <;> simp_all [PortSt.queue, PortSt.allEntries, PortSt.setQueue]
  | g => simp [show x.gq = e :: es from front, PortSt.allEntries, PortSt.setQueue, same]
  | m => simp [show x.mq = e :: es from front, PortSt.allEntries, PortSt.setQueue, same]

theorem allEntries_setQueue_of_lists {x y : PortSt} (data : y.data = x.data) (gq : y.gq = x.gq) (mq : y.mq = x.mq) (q : QueueId)
    (es : List QueueEntry) : (y.setQueue q es).allEntries = (x.setQueue q es).allEntries := by
  cases q <;> simp [PortSt.allEntries, PortSt.setQueue, data, gq, mq]

/-- R83: what a port's leaving has reported of RESTART stays so. -/
theorem reported_leaveService {w : State} {r : Port} (told : w.mgmt.restart = .reported r) (p : Port) (target : PortState) :
    (w.leaveService p target).mgmt.restart = .reported r := by
  refine (onlyReleases_leaveService w p target).reported r ?_
  rw [restart_mgmtStruck]
  refine (entriesLeft_portFlushed w p target).reported r ?_
  rw [State.portGone, (onlyFlags_judgePort _ _ _).mgmt, State.modPort_mgmt, (endsCalls_settleDemands w p).mgmt]
  exact told

theorem AttemptFails.entries_counted (h : AttemptFails s p q c u) (fs : List QueueEntry) :
    (((u.failureCounted p).setQueue p q fs).port p).allEntries = ((s.port p).setQueue q fs).allEntries := by
  rw [port_setQueue_self]
  apply allEntries_setQueue_of_lists <;> rw [port_failureCounted]
  · exact h.port.data
  · exact h.port.gq
  · exact h.port.mq

theorem AttemptFails.workFlushed_kept (h : AttemptFails s p q c u) (front : s.queue p q = e :: es)
    (stays : ¬ e.dropsAt (s.portRec p).retry) (none : ∀ d ∈ s.wires.claims, d.isLeaving p = false) :
    WorkFlushed s ((u.completeFailure p).leaveService p .isolated) p [] ((s.port p).allEntries.filterMap QueueEntry.callTag) := by
  have claims : (u.completeFailure p).wires.claims = s.wires.claims := by
    rw [h.kept front stays]
    exact h.claims
  have pool : (u.completeFailure p).pool = s.pool := by
    rw [h.kept front stays]
    exact h.pool
  have mgmt : (u.completeFailure p).mgmt = s.mgmt := by
    rw [h.kept front stays]
    exact h.mgmt
  have entries : ((u.completeFailure p).port p).allEntries.map QueueEntry.flushed
      = (s.port p).allEntries.map QueueEntry.flushed := by
    rw [h.kept front stays, h.entries_counted]
    exact flushed_setQueue_head front rfl
  rw [← callTags_of_flushed entries]
  exact workFlushed_of_same entries pool mgmt claims (workFlushed_leaveService (by rwa [claims]) .isolated)

/-- What the drop of a failed entry changes that a flush behind it reads. -/
structure HeadDropped (s : State) (p : Port) (q : QueueId) (e : QueueEntry) (es : List QueueEntry) (w : State) : Prop where
  claims : w.wires.claims = s.wires.claims ++ (e.callTag.map (fun tag => Claim.undeliverable p tag (e.noRetry == .abort))).toList
  entries : (w.port p).allEntries = ((s.port p).setQueue q es).allEntries
  mgmtQueue : w.mgmt.queue = s.mgmt.queue
  holds : ∀ b, (w.buffer b).holds = (s.buffer b).holds - [e].countP (fun e => e.buffer == some b)
  reported : ∀ r, e.restartReply = true → s.mgmt.restart = .awaiting r → w.mgmt.restart = .reported r
  plain : e.restartReply = false → w.mgmt.restart = s.mgmt.restart

theorem AttemptFails.headDropped (h : AttemptFails s p q c u) (front : s.queue p q = e :: es)
    (drops : e.dropsAt (s.portRec p).retry) : HeadDropped s p q e es (u.completeFailure p) := by
  have left := entriesLeft_entryLeft ((u.failureCounted p).setQueue p q es) e
  obtain ⟨ports, pool, mgmt, -, claims⟩ := claimFor_rest
    ((((u.failureCounted p).setQueue p q es).entryLeft e).modPortCount p (fun c => { c with txDropped := c.txDropped + 1 })) e
    (fun tag => .undeliverable p tag (e.noRetry == .abort))
  have before : ((u.failureCounted p).setQueue p q es).mgmt = s.mgmt := h.mgmt
  rw [h.dropped front drops]
  refine ⟨?_, ?_, ?_, fun b => ?_, fun r carries pending => ?_, fun plain => ?_⟩
  · refine claims.trans (congrArg (· ++ _) ?_)
    exact (claims_entryLeft _ e).trans h.claims
  · rw [← h.entries_counted]
    have released : ((((u.failureCounted p).setQueue p q es).entryLeft e).port p).allEntries
        = (((u.failureCounted p).setQueue p q es).port p).allEntries := by
      rw [(left.ports p).1]
      rfl
    refine (congrArg PortSt.allEntries (port_of_ports ports p)).trans (Eq.trans ?_ released)
    rw [State.modPortCount, State.port_modPort_self]
    rfl
  · exact (congrArg Mgmt.queue mgmt).trans (left.mgmtQueue.trans (congrArg Mgmt.queue before))
  · have buffer : ((u.failureCounted p).headDropped p q e es).buffer b
        = (((u.failureCounted p).setQueue p q es).entryLeft e).buffer b := congrArg (look · b) pool
    have earlier : ((u.failureCounted p).setQueue p q es).buffer b = s.buffer b := congrArg (look · b) h.pool
    rw [buffer, left.holds, earlier]
  · exact (congrArg Mgmt.restart mgmt).trans (restart_entryLeft carries (by rw [before]; exact pending))
  · exact (congrArg Mgmt.restart mgmt).trans ((restart_entryLeft_plain plain).trans (congrArg Mgmt.restart before))

/-- The drop and the flush behind it, told as one. -/
theorem HeadDropped.workFlushed {w : State} (h : HeadDropped s p q e es w) (front : s.queue p q = e :: es)
    (none : ∀ d ∈ s.wires.claims, d.isLeaving p = false) : WorkFlushed s (w.leaveService p .isolated) p
      (e.callTag.map (fun tag => Claim.undeliverable p tag (e.noRetry == .abort))).toList
      (((s.port p).setQueue q es).allEntries.filterMap QueueEntry.callTag) := by
  have perm := perm_allEntries_head (x := s.port p) front
  have none' : ∀ d ∈ w.wires.claims, d.isLeaving p = false := by
    rw [h.claims]
    intro d mem
    obtain earlier | new := List.mem_append.mp mem
    · exact none d earlier
    · obtain ⟨tag, -, rfl⟩ := Option.mem_map.mp (Option.mem_toList.mp new)
      rfl
  obtain ⟨handed, queue, holds, restart⟩ := workFlushed_leaveService none' .isolated
  rw [h.entries] at handed holds restart
  refine ⟨?_, by rw [queue, h.mgmtQueue], fun b => ?_, fun r carries pending => ?_⟩
  · rw [handed, h.claims, List.append_nil]
  · have order (one rest queued : Nat) : 0 + one + (rest + queued) = rest + one + queued := by omega
    rw [holds, h.holds, h.mgmtQueue, perm.countP_eq, List.countP_cons, List.countP_cons, List.countP_nil, Nat.sub_sub, order]
  · cases reply : e.restartReply with
    | true => exact reported_leaveService (h.reported r reply pending) p .isolated
    | false =>
      refine restart r ?_ ((h.plain reply).trans pending)
      obtain ⟨f, mem, carrying⟩ := carries
      obtain rfl | later := List.mem_cons.mp (perm.mem_iff.mp mem)
      · rw [reply] at carrying
        exact nomatch carrying
      · exact ⟨f, later, carrying⟩

end

/-! ### The commands at the cap -/

/-- What the statement about the cap says of every command c that raises a score to it, by `raised`. -/
structure CapReached (s : State) (p : Port) (c : Instr) (raised : Nat) (t : State) : Prop extends IsolatedFrom s p t where
  tally : (t.port p).recoveryTally = if s.completesRun p c then 1 else 0
  reception : (t.port p).reception = if c = .ackWindowExpiry p then passedOver (s.port p).reception
    else if c = .characterRecognised p .start ∨ c = .brokenFrame p (.character .start) then .passingOver else .none
  linkUp : (t.port p).linkUp = ((s.port p).linkUp && c != .lossOfSignal p && c != .brokenFrame p .lossOfSignal)
  counters : (t.port p).counters = if raised = 4 then { (s.port p).counters with rxCheck := (s.port p).counters.rxCheck + 1 }
    else { (s.port p).counters with txFail := (s.port p).counters.txFail + 1, txDropped := (t.port p).counters.txDropped }

section
variable {s : State} {p : Port} {c : Instr}

theorem CheckEnds.capReached {u t : State} (h : CheckEnds s p c u t) (reached : 255 ≤ (s.port p).score + 4) :
    CapReached s p c 4 t := by
  have isolated := h.isolatedFrom reached
  refine ⟨isolated.onlyLine h.after h.flagged, h.tally isolated.state,
    (h.receptionEnds isolated.state).trans (if_neg h.noExpiry).symm, ?_, ?_⟩
  · have up : (t.port p).linkUp = true ↔ c ≠ .lossOfSignal p ∧ c ≠ .brokenFrame p .lossOfSignal := by
      rw [← not_or, ← h.link, Bool.not_eq_false]
    rw [Bool.eq_iff_iff, up, h.wasUp]
    simp
  · rw [if_pos rfl, h.after.port.counters, h.port_badFrame_atCap reached]
    rfl

theorem AttemptFails.capReached {q : QueueId} {e : QueueEntry} {es : List QueueEntry} {u : State} (h : AttemptFails s p q c u)
    (front : s.queue p q = e :: es) (named : c = .ackWindowExpiry p ∨ c = .nakReceived p .check) :
    CapReached s p c 8 ((u.completeFailure p).leaveService p .isolated) := by
  have done := h.over front
  have port := port_leaveService (u.completeFailure p) p .isolated rfl
  have linkUp := done.linkUp.trans h.link
  have reception := done.reception.trans h.reception
  have counters := done.counters
  rw [h.port.counters] at counters
  refine ⟨h.isolatedFrom front, ?_, ?_, ?_, ?_⟩ <;> rw [port]
  · obtain rfl | rfl := named <;> simp [State.completesRun, portLeft]
  · show receptionClosed ((u.completeFailure p).port p).reception = _
    rw [reception, receptionClosed_eq]
    obtain rfl | rfl := named <;> simp [passedOver]
  · show ((u.completeFailure p).port p).linkUp = _
    have other : c ≠ .lossOfSignal p ∧ c ≠ .brokenFrame p .lossOfSignal := by obtain rfl | rfl := named <;> simp
    rw [linkUp, bne_iff_ne.mpr other.1, bne_iff_ne.mpr other.2, Bool.and_true, Bool.and_true]
  · exact counters

/-- Every command that raises the score to its cap isolates the port. -/
theorem capReached_of_raisesScore {raised : Nat} (run : s.resetAsserted = false) (h : RaisesScore s p c raised)
    (reached : 255 ≤ (s.port p).score + raised) : ∃ t, exec c s = .next t ∧ CapReached s p c raised t := by
  have checked (h : RaisesScore s p c 4) (reached : 255 ≤ (s.port p).score + 4) :
      ∃ t, exec c s = .next t ∧ CapReached s p c 4 t := by
    obtain ⟨u, t, ends⟩ := checkEnds_of_raisesScore h reached
    exact ⟨t, ends.ran, ends.capReached reached⟩
  cases h with
  | badFrame chars validates bad => exact checked (.badFrame chars validates bad) reached
  | brokenFrame i breaks validates => exact checked (.brokenFrame i breaks validates) reached
  | badEnd validates taking bad => exact checked (.badEnd validates taking bad) reached
  | brokenHere c i here => exact checked (.brokenHere c i here) reached
  | failure c q e es fails =>
    obtain ⟨front, ⟨u, failing⟩, named⟩ := attemptFails_of_failsAttempt run fails
    exact ⟨_, failing.ran_atCap front reached, failing.capReached front named⟩

end

end Sys2Proof.Machine

open Sys2Proof Sys2Proof.Machine

/-- Settles O13: the command is the line's part, the leaving of service that a score at its cap is, and what the line makes of an
ISOLATED port. -/
theorem scoreAtCapIsolates : Obligations.ScoreAtCapIsolates := by
  refine ⟨fun s p c raised run serves raises reached => ?_, fun s p c run raises reached none => ?_,
    fun s p q e es c run fails reached none => ?_⟩
  · obtain ⟨t, ran, cap⟩ : ∃ t, exec c s = .next t ∧ CapReached s p c raised t := capReached_of_raisesScore run raises reached
    refine ⟨t, ran, cap.state, cap.score, ?_, cap.reception, cap.sending, cap.awaiting, cap.linkUp, cap.counters,
      cap.returnState, cap.quiet, cap.portDown, cap.mgmtQueue, cap.isolated, cap.holding⟩
    simpa only [State.completesRun, decide_eq_true_eq] using cap.tally
  · obtain ⟨u, t, ends⟩ := checkEnds_of_raisesScore raises reached
    exact ⟨t, ends.ran, (ends.workFlushed reached none).onlyLine ends.after⟩
  · obtain ⟨front, ⟨u, failing⟩, -⟩ := attemptFails_of_failsAttempt run fails
    exact ⟨fun stays => ⟨_, failing.ran_atCap front reached, failing.workFlushed_kept front stays none⟩,
      fun drops => ⟨_, failing.ran_atCap front reached, (failing.headDropped front drops).workFlushed front none⟩⟩
end

section
/-! Writes of PORT records (R4, R118, R140, R141, R156, R180): the five checks in their order, and the statement about them. -/

namespace Sys2Proof.Machine
open Sys2Proof

theorem portOf_eq_none {b : Byte} (h : 3 < b) : portOf b = none := dif_neg (by bv_omega)

theorem portOf_portByte (p : Port) : portOf (portByte p) = some p := by
  revert p
  decide

/-! ### What the five checks ask (R141) -/

/-- R140: the ranges of the fields of a PORT record image. -/
def PortImageInRange (img : List Byte) : Prop :=
  byteAt img 0 ≤ 3 ∧ byteAt img 1 ≤ 1 ∧ halfAt img 3 ≤ 256 ∧ 1 ≤ byteAt img 5 ∧ byteAt img 5 ≤ 240 ∧ byteAt img 6 ≤ 240
    ∧ byteAt img 7 ≤ 239 ∧ 1 ≤ byteAt img 8 ∧ 1 ≤ byteAt img 9 ∧ byteAt img 10 ≤ 15 ∧ byteAt img 11 ≤ 1 ∧ byteAt img 12 ≤ 2

theorem portImageOk_iff (img : List Byte) : portImageOk img = true ↔ PortImageInRange img := by
  simp only [portImageOk, PortImageInRange, Bool.and_eq_true, decide_eq_true_eq, and_assoc]

theorem portRec_ofImage_eq_none {img : List Byte} (h : ¬ PortImageInRange img) : PortRec.ofImage img = none :=
  if_neg (by rwa [portImageOk_iff])

/-- R180: a PORT record read from an image of the table's length has that image. -/
theorem portRec_ofImage_eq_some {img : List Byte} (len : img.length = 13) (h : PortImageInRange img) :
    ∃ r, PortRec.ofImage img = some r ∧ r.image = img := by
  obtain ⟨r, read⟩ : ∃ r, PortRec.ofImage img = some r := ⟨_, if_pos ((portImageOk_iff img).mpr h)⟩
  exact ⟨r, read, portRec_image_of_ofImage len read⟩

theorem portMarksOk_iff (r : PortRec) : portMarksOk r = true ↔
    (r.holdMark ≠ 0 → r.resumeMark < r.holdMark) ∧ r.ruleStart.toNat + r.ruleCount.toNat ≤ 256 := by
  simp only [portMarksOk, Bool.and_eq_true, Bool.or_eq_true, beq_iff_eq, decide_eq_true_eq, or_iff_not_imp_left, ne_eq]

/-- R4 as a proposition: an index lies in both blocks. -/
theorem blocksMeet_iff (a b : PortRec) : blocksMeet a b = true ↔
    ∃ k : Nat, a.ruleStart.toNat ≤ k ∧ k < a.ruleStart.toNat + a.ruleCount.toNat
      ∧ b.ruleStart.toNat ≤ k ∧ k < b.ruleStart.toNat + b.ruleCount.toNat := by
  have nonempty (x : Half) : x ≠ 0 ↔ 0 < x.toNat := by bv_omega
  simp only [blocksMeet, Bool.and_eq_true, bne_iff_ne, nonempty, decide_eq_true_eq, and_assoc]
  constructor
  · rintro ⟨_, _, _, _⟩
    exact ⟨max a.ruleStart.toNat b.ruleStart.toNat, by omega⟩
  · rintro ⟨k, _, _, _, _⟩
    omega

theorem blockOverlapsOther_iff (s : State) (p : Port) (r : PortRec) : blockOverlapsOther s p r = true ↔
    ∃ q, q ≠ p ∧ blocksMeet r (s.portRec q) = true := by
  simp only [blockOverlapsOther, List.any_eq_true, List.mem_finRange, Bool.and_eq_true, bne_iff_ne, true_and, ne_eq]

theorem ackWindowFree_iff (s : State) (p : Port) (r : PortRec) : ackWindowFree s p r = true ↔
    r.ackWindow = (s.portRec p).ackWindow ∨ (s.port p).state = .disabled ∨ (s.port p).state = .config := by
  simp only [ackWindowFree, Bool.or_eq_true, beq_iff_eq, or_assoc]

/-! ### The outcomes of the write -/

section
variable {s : State} {q : Request}

theorem opWritePort_badIndex (index : portOf (byteAt q.payload 1) = none) : opWritePort s q = refusedWith s .badIndex := by
  unfold opWritePort
  rw [index]

variable {p : Port} (index : portOf (byteAt q.payload 1) = some p)
include index

theorem opWritePort_unread (read : PortRec.ofImage (writtenImage q) = none) : opWritePort s q = refusedWith s .badValue := by
  unfold opWritePort
  rw [index, read]

variable {r : PortRec} (read : PortRec.ofImage (writtenImage q) = some r)
include read

theorem opWritePort_read : opWritePort s q =
    if portMarksOk r = false then refusedWith s .badValue
    else if blockOverlapsOther s p r then refusedWith s .overlap
    else if ackWindowFree s p r = false then refusedWith s .wrongState
    else doneEmpty (s.setPortRec p r) := by
  unfold opWritePort
  rw [index, read]

theorem opWritePort_badMarks (marks : ¬ portMarksOk r = true) : opWritePort s q = refusedWith s .badValue := by
  rw [opWritePort_read index read, if_pos (Bool.eq_false_of_not_eq_true marks)]

variable (marks : portMarksOk r = true)
include marks

theorem opWritePort_overlap (meets : blockOverlapsOther s p r = true) : opWritePort s q = refusedWith s .overlap := by
  rw [opWritePort_read index read, if_neg (by simp [marks]), if_pos meets]

variable (apart : ¬ blockOverlapsOther s p r = true)
include apart

theorem opWritePort_wrongState (held : ¬ ackWindowFree s p r = true) : opWritePort s q = refusedWith s .wrongState := by
  rw [opWritePort_read index read, if_neg (by simp [marks]), if_neg apart, if_pos (Bool.eq_false_of_not_eq_true held)]

theorem opWritePort_done (free : ackWindowFree s p r = true) : opWritePort s q = doneEmpty (s.setPortRec p r) := by
  rw [opWritePort_read index read, if_neg (by simp [marks]), if_neg apart, if_neg (by simp [free])]

end

theorem opWritePort_owed (s : State) (q : Request) : (opWritePort s q).owed = none := by
  unfold opWritePort
  split
  · rfl
  · split
    · rfl
    · split
      · rfl
      · split
        · rfl
        · split <;> rfl

end Sys2Proof.Machine

open Sys2Proof Sys2Proof.Machine

/-- Settles O47: the write is refused by the first check that fails, or puts the record its image reads as in its port's place. -/
theorem writesOfPortRecords : Obligations.WritesOfPortRecords := by
  intro s o e runs pl img portRing mgmtAdmit ruleCount quota holdMark resumeMark holdTime ackWindow retry arb recovery inRange
  refine ⟨opWritePort s.dropHead (s.request e), exec_rowOf_of_runs runs o, opWritePort_owed _ _, fun bad => ?_, fun p named => ?_⟩
  · rw [opWritePort_badIndex (portOf_eq_none bad)]
    exact ⟨rfl, rfl, rfl⟩
  · have index : portOf (byteAt (s.request e).payload 1) = some p := by
      rw [← named]
      exact portOf_portByte p
    refine ⟨fun bad => ?_, fun good => ?_⟩
    · rw [opWritePort_unread index (portRec_ofImage_eq_none bad)]
      exact ⟨rfl, rfl, rfl⟩
    · have len : img.length = 13 := by
        simp [img, pl, payload_length_of_runs_write (t := .port) runs, TableName.imageLength]
      obtain ⟨r, read, image⟩ := portRec_ofImage_eq_some len good
      refine ⟨r, read, image, ?_⟩
      intro fits meets windowFree
      have fits_iff : portMarksOk r = true ↔ fits := portMarksOk_iff r
      have meets_iff : blockOverlapsOther s.dropHead p r = true ↔ meets := by
        simp only [blockOverlapsOther_iff, blocksMeet_iff]
        rfl
      have windowFree_iff : ackWindowFree s.dropHead p r = true ↔ windowFree := ackWindowFree_iff s.dropHead p r
      rw [← fits_iff, ← meets_iff, ← windowFree_iff]
      refine ⟨fun marks => ?_, fun marks meet => ?_, fun marks apart held => ?_, fun marks apart free => ?_⟩
      · rw [opWritePort_badMarks index read marks]
        exact ⟨rfl, rfl, rfl⟩
      · rw [opWritePort_overlap index read marks meet]
        exact ⟨rfl, rfl, rfl⟩
      · rw [opWritePort_wrongState index read marks apart held]
        exact ⟨rfl, rfl, rfl⟩
      · rw [opWritePort_done index read marks apart free]
        refine ⟨rfl, rfl, ?_, fun j other => ?_, rfl, rfl, rfl, rfl, rfl⟩
        · exact (portRec_setPortRec _ _ _ _).trans (if_pos rfl)
        · exact (portRec_setPortRec _ _ _ _).trans (if_neg (Ne.symm other))
end

section
/-! Entering service (R106, R122, R132, R137, R139): what it makes of the port, the flags of the level conditions that fall, and the
judgement of own HOLDING behind it. -/

namespace Sys2Proof.Machine
open Sys2Proof

/-! ### The level conditions of a port that changes its state (R164) -/

/-- A judgement of a port's four level conditions raises the FALL of each that has fallen. -/
theorem flagged_judgePort_fall {s before : State} {p : Port} {l : Level}
    (ofPort : l = .linkUp p ∨ l = .warn p ∨ l = .isolated p ∨ l = .holding p)
    (was : before.levelHolds l = true) (now : s.levelHolds l = false) : (s.judgePort p before).flagged (.fall l) := by
  have fell {u : State} (h : OnlyFlags s u) : (u.judge l (before.levelHolds l)).flagged (.fall l) := by
    rw [was]
    exact flagged_judge_fall ((h.levelHolds l).trans now)
  have link := onlyFlags_judge s (.linkUp p) (before.levelHolds (.linkUp p))
  have warn := link.trans (onlyFlags_judge _ (.warn p) (before.levelHolds (.warn p)))
  have isolated := warn.trans (onlyFlags_judge _ (.isolated p) (before.levelHolds (.isolated p)))
  unfold State.judgePort
  rcases ofPort with rfl | rfl | rfl | rfl
  · exact (onlyFlags_judge _ _ _).flagged _ ((onlyFlags_judge _ _ _).flagged _ ((onlyFlags_judge _ _ _).flagged _ (fell (.refl s))))
  · exact (onlyFlags_judge _ _ _).flagged _ ((onlyFlags_judge _ _ _).flagged _ (fell link))
  · exact (onlyFlags_judge _ _ _).flagged _ (fell warn)
  · exact fell isolated

/-- The settling of an earlier leaving reaches a port in its G queue alone (R64, R67). -/
theorem port_settleDemands (s : State) (p q : Port) :
    (s.settleDemands p).port q = { s.port q with gq := ((s.settleDemands p).port q).gq } :=
  (endsCalls_settleDemands s p).ports q

/-- No level condition of a port reads its G queue. -/
theorem levelHolds_of_port {s t : State} {p : Port} {l : Level}
    (ofPort : l = .linkUp p ∨ l = .warn p ∨ l = .isolated p ∨ l = .holding p)
    (same : t.port p = { s.port p with gq := (t.port p).gq }) : t.levelHolds l = s.levelHolds l := by
  rcases ofPort with rfl | rfl | rfl | rfl <;> rw [State.levelHolds, same] <;> rfl

/-- A level condition that falls with a port's change of state is raised, also where demands of an earlier leaving are settled
before the change. -/
theorem flagged_settled_fall {s : State} {p : Port} {l : Level} {f : PortSt → PortSt}
    (ofPort : l = .linkUp p ∨ l = .warn p ∨ l = .isolated p ∨ l = .holding p)
    (apart : ∀ x g, f { x with gq := g } = { f x with gq := (f { x with gq := g }).gq })
    (held : s.levelHolds l = true) (fallen : (s.modPort p f).levelHolds l = false) :
    (((s.settleDemands p).modPort p f).judgePort p (s.settleDemands p)).flagged (.fall l) := by
  refine flagged_judgePort_fall ofPort ((levelHolds_of_port ofPort (port_settleDemands s p p)).trans held) (.trans ?_ fallen)
  refine levelHolds_of_port ofPort ?_
  rw [State.port_modPort_self, State.port_modPort_self, port_settleDemands]
  exact apart _ _

/-! ### The port that has entered (R132, R137, R139) -/

/-- From s to t port p entered service in the state `target`, from outside. -/
structure EntersService (s : State) (p : Port) (target : PortState) (t : State) : Prop where
  port : t.port p = { portEntered target (s.port p) with
    gq := (t.port p).gq, control := (t.port p).control, ownHold := (t.port p).ownHold }
  isolated : (s.port p).state = .isolated → t.flagged (.fall (.isolated p))
  warn : 96 ≤ (s.port p).score → t.flagged (.fall (.warn p))
  judged : HoldJudged s t p (s.port p).control (s.occupancy p)

theorem EntersService.onlyFlags {s t u : State} {p : Port} {target : PortState} (h : EntersService s p target t)
    (k : OnlyFlags t u) : EntersService s p target u where
  port := by
    rw [k.port]
    exact h.port
  isolated := k.flagged _ ∘ h.isolated
  warn := k.flagged _ ∘ h.warn
  judged := by
    obtain ⟨begins, ends, stays⟩ := h.judged
    refine ⟨fun b => ?_, fun e => ?_, fun nb ne => ?_⟩
    · obtain ⟨held, sent, set⟩ := begins b
      exact ⟨k.port p ▸ held, k.port p ▸ sent, k.flagged _ set⟩
    · obtain ⟨held, sent, set⟩ := ends e
      exact ⟨k.port p ▸ held, k.port p ▸ sent, k.flagged _ set⟩
    · rw [k.port]
      exact stays nb ne

/-- Port p has taken the state it enters, its demands of an earlier leaving settled before; own HOLDING is still to be judged. -/
def State.portIn (s : State) (p : Port) (target : PortState) : State :=
  ((s.settleDemands p).modPort p (portEntered target)).judgePort p (s.settleDemands p)

section
variable (s : State) (p : Port) (target : PortState)

theorem enterService_eq : s.enterService p target = (s.portIn p target).judgeHold p := rfl

theorem port_portIn : (s.portIn p target).port p
    = { portEntered target (s.port p) with gq := ((s.settleDemands p).port p).gq } := by
  rw [State.portIn, (onlyFlags_judgePort _ _ _).port, State.port_modPort_self, port_settleDemands]
  rfl

theorem occupancy_portIn : (s.portIn p target).occupancy p = s.occupancy p := by
  rw [State.portIn, (onlyFlags_judgePort _ _ _).occupancy, State.occupancy, State.modPort_pool, (endsCalls_settleDemands s p).pool]
  rfl

theorem tables_portIn : (s.portIn p target).tables = s.tables :=
  ((keeps_settleDemands s p).trans ((keeps_modPort _ p _).trans (keeps_judgePort _ p _))).tables

theorem flagged_enterService {l : Level} (ofPort : l = .linkUp p ∨ l = .warn p ∨ l = .isolated p ∨ l = .holding p)
    (held : s.levelHolds l = true) (fallen : (s.modPort p (portEntered target)).levelHolds l = false) :
    (s.enterService p target).flagged (.fall l) :=
  (onlyHolding_judgeHold _ p).flagged _ (flagged_settled_fall ofPort (fun _ _ => rfl) held fallen)

end

theorem entersService_enterService {target : PortState} (serves : target.inService = true) (s : State) (p : Port) :
    EntersService s p target (s.enterService p target) where
  port := by
    have same := ((onlyHolding_judgeHold (s.portIn p target) p).ports p).1
    rw [← enterService_eq, port_portIn] at same
    rw [same]
  isolated := fun isolated => by
    refine flagged_enterService s p target (.inr (.inr (.inl rfl))) (by simp [State.levelHolds, isolated]) ?_
    rw [State.levelHolds, State.port_modPort_self]
    show (target == .isolated) = false
    cases target <;> simp [PortState.inService] at serves ⊢
  warn := fun warns => by
    refine flagged_enterService s p target (.inr (.inl rfl)) (decide_eq_true warns) ?_
    rw [State.levelHolds, State.port_modPort_self]
    rfl
  judged := by
    have port := port_portIn s p target
    have judged := holdJudged_judgeHold (s := s.portIn p target) (p := p) (by rw [port]; exact serves)
    rw [← enterService_eq, occupancy_portIn, port] at judged
    exact holdJudged_of_same (by rw [port]; rfl) (tables_portIn s p target) judged

end Sys2Proof.Machine
end

section
/-! Recovery (R115, R136 to R138): the idle run on a port out of service, the tally it brings, and the statement about ISOLATED
ports. -/

namespace Sys2Proof.Machine
open Sys2Proof

/-! ### The idle run handed to a port that does not receive (R112, R114, R115) -/

/-- The line monitor has handed an idle run to port p's link-up state; what it brings an ISOLATED port is still to come. -/
def State.runHanded (s : State) (p : Port) : State :=
  let t := (s.setReception p .none).modPort p (fun x => { x with watch := some 1 })
  (t.modPort p (fun x => { x with idleCount := 0, linkUp := true })).judge (.linkUp p) (t.levelHolds (.linkUp p))

section
variable {s : State} {p : Port}

theorem breakReception_of_deaf (deaf : s.receives p = false) : s.breakReception p = s.setReception p .none := by
  rw [State.breakReception, deaf, Bool.and_false]
  rfl

theorem arriveIdleRun_of_deaf (enabled : (s.port p).state ≠ .disabled) (deaf : s.receives p = false) :
    s.arriveIdleRun p = (s.runHanded p).recoveryRun p := by
  rw [State.arriveIdleRun, if_neg enabled, breakReception_of_deaf deaf]
  rfl

theorem port_runHanded (s : State) (p : Port) : (s.runHanded p).port p
    = { s.port p with reception := .none, watch := some 1, idleCount := 0, linkUp := true } := by
  rw [State.runHanded, (onlyFlags_judge _ _ _).port, State.port_modPort_self, State.port_modPort_self, port_setReception]

theorem tables_runHanded (s : State) (p : Port) : (s.runHanded p).tables = s.tables := (onlyFlags_judge _ _ _).tables

theorem occupancy_runHanded (s : State) (p : Port) : (s.runHanded p).occupancy p = s.occupancy p :=
  (onlyFlags_judge _ _ _).occupancy p

/-! ### The tally of an ISOLATED port (R136 to R138) -/

/-- R136: an idle run raises the tally, up to 64. -/
def State.tallied (s : State) (p : Port) : State :=
  s.modPort p (fun x => { x with recoveryTally := min Config.recoveryRuns (x.recoveryTally + 1) })

/-- R137, R138: what a complete tally brings. -/
def State.recovered (s : State) (p : Port) : State :=
  match State.recoverTo (s.portRec p).recovery (s.port p) with
  | some target => (s.enterService p target).raise (.event .portRecovered)
  | none => s

theorem recoveryRun_isolated (isolated : (s.port p).state = .isolated) : s.recoveryRun p
    = if ((s.tallied p).port p).recoveryTally = 64 then (s.tallied p).recovered p else s.tallied p := if_pos isolated

theorem recovered_of_none (stays : State.recoverTo (s.portRec p).recovery (s.port p) = none) : s.recovered p = s := by
  rw [State.recovered, stays]

theorem recovered_of_some {target : PortState} (recovers : State.recoverTo (s.portRec p).recovery (s.port p) = some target) :
    s.recovered p = (s.enterService p target).raise (.event .portRecovered) := by
  rw [State.recovered, recovers]

/-- R138: a MANUAL port recovers by no idle run. -/
theorem recoverTo_manual (x : PortSt) : State.recoverTo .manual x = none := rfl

/-- R137: the state that recovery takes an AUTO port or a PARK port to. -/
theorem recoverTo_of_not_manual {r : Recovery} (own : r ≠ .manual) (x : PortSt) :
    State.recoverTo r x = some (if r = .auto ∧ x.returnState = .forward then .forward else .listen) := by
  unfold State.recoverTo
  cases r with
  | auto => cases x.returnState <;> rfl
  | park => rfl
  | manual => contradiction

/-! ### The idle run on an ISOLATED port (R136 to R138) -/

/-- An idle run has come to port p, which is ISOLATED, and raised its tally; the recovery it may complete is still to come. -/
def State.runTallied (s : State) (p : Port) : State := (s.runHanded p).tallied p

theorem port_runTallied (s : State) (p : Port) : (s.runTallied p).port p = { s.port p with
    reception := .none
    watch := some 1
    idleCount := 0
    linkUp := true
    recoveryTally := min 64 ((s.port p).recoveryTally + 1) } := by
  rw [State.runTallied, State.tallied, State.port_modPort_self, port_runHanded]
  rfl

theorem tables_runTallied (s : State) (p : Port) : (s.runTallied p).tables = s.tables := tables_runHanded s p

theorem occupancy_runTallied (s : State) (p : Port) : (s.runTallied p).occupancy p = s.occupancy p := occupancy_runHanded s p

/-- R137: the state a port recovers to is read off what no idle run changes. -/
theorem recoverTo_runTallied (s : State) (p : Port) : State.recoverTo ((s.runTallied p).portRec p).recovery
    ((s.runTallied p).port p) = State.recoverTo (s.portRec p).recovery (s.port p) := by
  rw [State.portRec, tables_runTallied, port_runTallied]
  rfl

section
variable (isolated : (s.port p).state = .isolated)
include isolated

theorem arriveIdleRun_isolated : s.arriveIdleRun p
    = if ((s.runTallied p).port p).recoveryTally = 64 then (s.runTallied p).recovered p else s.runTallied p := by
  rw [arriveIdleRun_of_deaf (by simp [isolated]) (by simp [State.receives, isolated, PortState.inService])]
  refine recoveryRun_isolated ?_
  rw [port_runHanded]
  exact isolated

theorem arriveIdleRun_short (short : (s.port p).recoveryTally < 63) : s.arriveIdleRun p = s.runTallied p := by
  rw [arriveIdleRun_isolated isolated, port_runTallied]
  refine if_neg ?_
  show ¬ min 64 ((s.port p).recoveryTally + 1) = 64
  omega

theorem arriveIdleRun_full (full : 63 ≤ (s.port p).recoveryTally) : s.arriveIdleRun p = (s.runTallied p).recovered p := by
  rw [arriveIdleRun_isolated isolated, port_runTallied]
  exact if_pos (Nat.min_eq_left (Nat.succ_le_succ full))

end

/-- R106, R122, R132, R137: an ISOLATED port enters service behind its 64th idle run. -/
theorem entersService_recovered {target : PortState}
    (recovers : State.recoverTo (s.portRec p).recovery (s.port p) = some target) :
    EntersService (s.runTallied p) p target ((s.runTallied p).recovered p)
      ∧ ((s.runTallied p).recovered p).flagged (.event .portRecovered) := by
  rw [recovered_of_some ((recoverTo_runTallied s p).trans recovers)]
  exact ⟨(entersService_enterService (inService_recoverTo recovers) _ p).onlyFlags (onlyFlags_raise _ _), flagged_raise _ _⟩

end

end Sys2Proof.Machine

open Sys2Proof Sys2Proof.Machine

/-- Settles O17: short of the 64th idle run, or where RECOVERY is MANUAL, the tally alone goes on; otherwise the port enters
service. -/
theorem cleanLineRecoversIsolatedPort : Obligations.CleanLineRecoversIsolatedPort := by
  intro s p run isolated
  have ran : exec (.idleRun p) s = .next (s.arriveIdleRun p) := running_of_notReset run (·.arriveIdleRun p)
  have port := port_runTallied s p
  refine ⟨fun short => ⟨_, ran, ?_⟩, fun full manual => ⟨_, ran, ?_⟩, fun full own => ⟨_, ran, ?_⟩⟩
  · rw [arriveIdleRun_short isolated short, port]
    exact ⟨isolated, Nat.min_eq_right (by omega), rfl, rfl⟩
  · have stays := recoverTo_runTallied s p
    rw [manual, recoverTo_manual] at stays
    rw [arriveIdleRun_full isolated full, recovered_of_none stays, port]
    exact ⟨isolated, Nat.min_eq_left (Nat.succ_le_succ full), rfl⟩
  · obtain ⟨entered, recovered⟩ := entersService_recovered (recoverTo_of_not_manual own (s.port p))
    have judged := holdJudged_of_same (by rw [port]) (tables_runTallied s p) entered.judged
    rw [occupancy_runTallied, port] at judged
    rw [arriveIdleRun_full isolated full]
    refine ⟨?_, ?_, ?_, recovered, entered.isolated (by rw [port]; exact isolated),
      fun warns => entered.warn (by rw [port]; exact warns), judged⟩ <;> rw [entered.port] <;> rfl
end

section
/-! SET PORT STATE (R88, R109, R122, R126 to R139): the checks in their order, what each transition makes of the port, and the
statement about them. -/

namespace Sys2Proof.Machine
open Sys2Proof

/-! ### The checks of SET PORT STATE (R126) -/

theorem targetOf_eq_none {b : Byte} (h : 3 < b) : targetOf b = none := by
  obtain ⟨h0, h1, h2, h3⟩ : b ≠ 0 ∧ b ≠ 1 ∧ b ≠ 2 ∧ b ≠ 3 := by bv_omega
  rw [targetOf, if_neg h0, if_neg h1, if_neg h2, if_neg h3]

theorem targetOf_code {target : PortState} (named : target ≠ .isolated) : targetOf target.code = some target := by
  cases target with
  | isolated => contradiction
  | _ => rfl

theorem transitionAllowed_iff (old target : PortState) :
    transitionAllowed old target = true ↔ (old = .disabled → target = .config) := by
  cases old <;> simp [transitionAllowed]

section
variable {s : State} {q : Request}

theorem opSetPortState_badIndex (index : portOf (byteAt q.payload 0) = none) : opSetPortState s q = refusedWith s .badIndex := by
  unfold opSetPortState
  rw [index]

variable {p : Port} (index : portOf (byteAt q.payload 0) = some p)
include index

theorem opSetPortState_badValue (value : targetOf (byteAt q.payload 1) = none) : opSetPortState s q = refusedWith s .badValue := by
  unfold opSetPortState
  rw [index, value]

variable {target : PortState} (value : targetOf (byteAt q.payload 1) = some target)
include value

theorem opSetPortState_read : opSetPortState s q =
    if p = q.port ∧ target.inService = false then refusedWith s .selfPort
    else if target = (s.port p).state then doneEmpty s
    else if transitionAllowed (s.port p).state target then doneEmpty (s.transition p target)
    else refusedWith s .wrongState := by
  unfold opSetPortState
  rw [index, value]

theorem opSetPortState_selfPort (self : p = q.port ∧ target.inService = false) :
    opSetPortState s q = refusedWith s .selfPort := by
  rw [opSetPortState_read index value, if_pos self]

variable (other : ¬ (p = q.port ∧ target.inService = false))
include other

theorem opSetPortState_same (same : target = (s.port p).state) : opSetPortState s q = doneEmpty s := by
  rw [opSetPortState_read index value, if_neg other, if_pos same]

variable (new : target ≠ (s.port p).state)
include new

theorem opSetPortState_wrongState (barred : ¬ ((s.port p).state = .disabled → target = .config)) :
    opSetPortState s q = refusedWith s .wrongState := by
  rw [opSetPortState_read index value, if_neg other, if_neg new, if_neg (by rwa [transitionAllowed_iff])]

theorem opSetPortState_done (allowed : (s.port p).state = .disabled → target = .config) :
    opSetPortState s q = doneEmpty (s.transition p target) := by
  rw [opSetPortState_read index value, if_neg other, if_neg new, if_pos ((transitionAllowed_iff _ _).mpr allowed)]

end

theorem opSetPortState_owed (s : State) (q : Request) : (opSetPortState s q).owed = none := by
  unfold opSetPortState
  split
  · rfl
  · split
    · rfl
    · split
      · rfl
      · split
        · rfl
        · split <;> rfl

/-! ### The transitions (R127 to R134, R139) -/

section
variable {s : State} {p : Port} {target : PortState}

theorem transition_leaves (leaves : target.inService = false) : s.transition p target = s.leaveService p target := by
  rw [State.transition, if_neg (by simp [leaves])]

theorem transition_enters (serves : target.inService = true) (outside : (s.port p).state.inService = false) :
    s.transition p target = s.enterService p target := by
  rw [State.transition, if_pos serves, if_neg (by simp [outside])]

theorem transition_switches (serves : target.inService = true) (served : (s.port p).state.inService = true) :
    s.transition p target = s.switchService p target := by
  rw [State.transition, if_pos serves, if_pos served]

theorem state_transition (s : State) (p : Port) (target : PortState) : ((s.transition p target).port p).state = target := by
  cases serves : target.inService with
  | false => rw [transition_leaves serves, port_leaveService s p target serves]; rfl
  | true =>
    cases served : (s.port p).state.inService with
    | false => rw [transition_enters serves served, (entersService_enterService serves s p).port]; rfl
    | true => rw [transition_switches serves served, State.switchService, State.port_modPort_self]

/-- R132: a FRAME under way as its port enters service is passed over. -/
theorem EntersService.reception {t : State} (h : EntersService s p target t) :
    (t.port p).reception = passedOver (s.port p).reception := by
  rw [h.port]
  exact receptionClosed_eq _

/-! ### What leaving service leaves (R88, R109, R122, R127 to R131) -/

/-- A level condition that the port does not hold out of service falls as it leaves. -/
theorem flagged_leaveService_fall {l : Level} (ofPort : l = .linkUp p ∨ l = .warn p ∨ l = .isolated p ∨ l = .holding p)
    (held : s.levelHolds l = true) (fallen : (s.modPort p (portLeft target)).levelHolds l = false) :
    (s.leaveService p target).flagged (.fall l) :=
  flagged_leaveService s p target _ (flagged_settled_fall ofPort (fun _ _ => rfl) held fallen)

theorem score_portLeft (named : target ≠ .isolated) (x : PortSt) : (portLeft target x).score = 0 := if_neg named

/-- R115, R117: a port is off the line in DISABLED alone. -/
theorem linkUp_portLeft (target : PortState) (x : PortSt) : (portLeft target x).linkUp = (x.linkUp && target != .disabled) := by
  show (if target = .disabled then false else x.linkUp) = _
  split
  · next disables => simp [disables]
  · next enables => simp [enables]

theorem reception_portLeft (target : PortState) (x : PortSt) :
    (portLeft target x).reception = if target = .disabled then .none else passedOver x.reception := by
  rw [← receptionClosed_eq]
  rfl

/-- From s to t port p left service for the state `target`, which is not ISOLATED. -/
structure LeavesService (s : State) (p : Port) (target : PortState) (t : State) : Prop where
  port : t.port p = portLeft target (s.port p)
  portDown : .portDown p ∈ t.wires.claims
  mgmtQueue : ∀ n ∈ t.mgmt.queue, n.port ≠ p
  isolated : (s.port p).state = .isolated → t.flagged (.fall (.isolated p))
  warn : 96 ≤ (s.port p).score → t.flagged (.fall (.warn p))
  holding : (s.port p).ownHold ≠ none → t.flagged (.fall (.holding p))
  linkUp : target = .disabled → (s.port p).linkUp = true → t.flagged (.fall (.linkUp p))

theorem leavesService_leaveService (leaves : target.inService = false) (named : target ≠ .isolated) (s : State) (p : Port) :
    LeavesService s p target (s.leaveService p target) where
  port := port_leaveService s p target leaves
  portDown := by
    rw [claims_leaveService]
    simp
  mgmtQueue := fun n mem => by
    rw [mgmtQueue_leaveService] at mem
    simpa using (List.mem_filter.mp mem).2
  isolated := fun isolated => by
    refine flagged_leaveService_fall (.inr (.inr (.inl rfl))) (by simp [State.levelHolds, isolated]) ?_
    rw [State.levelHolds, State.port_modPort_self]
    exact beq_eq_false_iff_ne.mpr named
  warn := fun warns => by
    refine flagged_leaveService_fall (.inr (.inl rfl)) (decide_eq_true warns) ?_
    rw [State.levelHolds, State.port_modPort_self, score_portLeft named]
    rfl
  holding := fun holds => flagged_leaveService_holding holds target
  linkUp := fun disables up => by
    refine flagged_leaveService_fall (.inl rfl) up ?_
    rw [State.levelHolds, State.port_modPort_self, portLeft, if_pos disables]

end

end Sys2Proof.Machine

open Sys2Proof Sys2Proof.Machine

/-- Settles O50: the request is refused by the first check that fails, or makes its transition: it leaves service, enters it or
changes between LISTEN and FORWARD. -/
theorem setPortStateMakesTransition : Obligations.SetPortStateMakesTransition := by
  intro s o e runs pl
  refine ⟨opSetPortState s.dropHead (s.request e), exec_rowOf_of_runs runs o, opSetPortState_owed _ _, fun bad => ?_,
    fun p named => ?_⟩
  · rw [opSetPortState_badIndex (portOf_eq_none bad)]
    exact ⟨rfl, rfl, rfl⟩
  · have index : portOf (byteAt (s.request e).payload 0) = some p := by
      rw [← named]
      exact portOf_portByte p
    intro old
    refine ⟨fun bad => ?_, fun target notIsolated code => ?_⟩
    · rw [opSetPortState_badValue index (targetOf_eq_none bad)]
      exact ⟨rfl, rfl, rfl⟩
    · have value : targetOf (byteAt (s.request e).payload 1) = some target := by
        rw [← targetOf_code notIsolated, code]
      intro self
      refine ⟨fun itself => ?_, fun other same => ?_, fun other new disabled direct => ?_, fun other new allowed => ?_⟩
      · rw [opSetPortState_selfPort index value itself]
        exact ⟨rfl, rfl, rfl⟩
      · rw [opSetPortState_same (s := s.dropHead) index value other same]
        exact ⟨rfl, rfl, rfl⟩
      · rw [opSetPortState_wrongState (s := s.dropHead) index value other new fun allowed => direct (allowed disabled)]
        exact ⟨rfl, rfl, rfl⟩
      · rw [opSetPortState_done (s := s.dropHead) index value other new allowed]
        refine ⟨rfl, rfl, state_transition _ p target, fun leaves => ?_, fun serves outside => ?_,
          fun serves served => transition_switches (s := s.dropHead) serves served⟩
        · have left := leavesService_leaveService leaves notIsolated s.dropHead p
          have port := left.port
          dsimp only [doneEmpty]
          rw [transition_leaves leaves, port]
          exact ⟨score_portLeft notIsolated _, quiet_portLeft _ _, rfl, left.portDown, left.mgmtQueue, linkUp_portLeft _ _, rfl,
            reception_portLeft _ _, symbolOutOfService_eq _ _, if_neg notIsolated, rfl, rfl, left.isolated, left.warn,
            left.holding, left.linkUp, fun none => workFlushed_leaveService (s := s.dropHead) none target⟩
        · have entered := entersService_enterService serves s.dropHead p
          have port := entered.port
          dsimp only [doneEmpty]
          rw [transition_enters (s := s.dropHead) serves outside]
          refine ⟨?_, ?_, entered.isolated, entered.warn, ?_, ?_, entered.reception, ?_, ?_, ?_, ?_, entered.judged⟩ <;>
            rw [port] <;> rfl
end

section
/-! A port's commands spare the other ports (R124): what a port keeps while another port's link, scheduler or decisions act, what
every such operation reaches, and the statement about the commands. -/

namespace Sys2Proof.Machine
open Sys2Proof

/-! ### What a port keeps while another port acts -/

/-- A port without what another port's command may reach: its queues (deliveries and call replies), its timers (the time that
passes), and own HOLDING with the control symbols it sends (releases of buffers of its origin). -/
def PortSt.own (x : PortSt) : PortSt :=
  { x with
    watch := none
    control := []
    data := Vector.replicate 4 []
    gq := []
    mq := []
    attempt := none
    intervals := Vector.replicate 4 none
    partnerHold := none
    ownHold := none }

theorem own_setQueue (x : PortSt) (k : QueueId) (es : List QueueEntry) : (x.setQueue k es).own = x.own := by cases k <;> rfl

theorem own_of_sameButHold {x y : PortSt} (h : SameButHold x y) : y.own = x.own := by
  rw [h.1]
  rfl

/-- From s to t every port but p kept its own. -/
def SparesOthers (p : Port) (s t : State) : Prop := ∀ q, q ≠ p → (t.port q).own = (s.port q).own

namespace SparesOthers
variable {p : Port}

theorem refl (s : State) : SparesOthers p s s := fun _ _ => rfl

theorem trans {s t u : State} (h : SparesOthers p s t) (k : SparesOthers p t u) : SparesOthers p s u :=
  fun q other => (k q other).trans (h q other)

/-- `trans` with the later change named first. -/
theorem after {s t u : State} (k : SparesOthers p t u) (h : SparesOthers p s t) : SparesOthers p s u := h.trans k

theorem ite {s t u : State} {c : Prop} [Decidable c] (h : SparesOthers p s t) (k : SparesOthers p s u) :
    SparesOthers p s (if c then t else u) := by
  split
  · exact h
  · exact k

/-- A change of port p. -/
theorem modPort (s : State) (f : PortSt → PortSt) : SparesOthers p s (s.modPort p f) := fun q other => by
  rw [State.port_modPort, if_neg (Ne.symm other)]

theorem ofPorts {s t : State} (ports : t.ports = s.ports) : SparesOthers p s t := fun q _ => by rw [port_of_ports ports]

theorem ofFlags {s t : State} (h : OnlyFlags s t) : SparesOthers p s t := ofPorts h.ports

theorem ofHolding {s t : State} (h : OnlyHolding s t) : SparesOthers p s t := fun q _ => own_of_sameButHold (h.ports q)

theorem ofReleases {s t : State} (h : OnlyReleases s t) : SparesOthers p s t := fun q _ => own_of_sameButHold (h.ports q)

theorem ofEnds {s t : State} (h : EndsCalls s t) : SparesOthers p s t := fun q _ => by
  rw [h.ports q]
  rfl

end SparesOthers

section
variable {p : Port}

theorem sparesOthers_raise (s : State) (f : Flag) : SparesOthers p s (s.raise f) := .ofFlags (onlyFlags_raise s f)

theorem sparesOthers_judge (s : State) (l : Level) (was : Bool) : SparesOthers p s (s.judge l was) :=
  .ofFlags (onlyFlags_judge s l was)

theorem sparesOthers_judgeHold (s : State) (q : Port) : SparesOthers p s (s.judgeHold q) := .ofHolding (onlyHolding_judgeHold s q)

/-- R171: time passes for every port, and reaches its timers alone. -/
theorem sparesOthers_elapse (s : State) (d : Nat) : SparesOthers p s (s.elapse d) := fun q _ => by
  rw [State.port_elapse]
  rfl

/-- R73: a delivery reaches a queue, of whatever port. -/
theorem sparesOthers_setQueue (s : State) (r : Port) (k : QueueId) (es : List QueueEntry) :
    SparesOthers p s (s.setQueue r k es) := fun q _ => by
  rw [State.setQueue, State.port_modPort]
  split
  · next same => rw [own_setQueue, same]
  · rfl

theorem sparesOthers_deliver {s t : State} {r : Port} {k : QueueId} {e : QueueEntry} (delivered : s.deliver r k e = some t) :
    SparesOthers p s t := by
  obtain ⟨-, rfl⟩ := deliver_eq_some.mp delivered
  exact (sparesOthers_setQueue s r k _).trans (.ofPorts (ports_holdOpt _ _))

/-! ### Port states, the error score and recovery (R120 to R139) -/

theorem sparesOthers_settleDemands (s : State) (r : Port) : SparesOthers p s (s.settleDemands r) :=
  .trans (t := s.leavingTaken r) (.ofPorts rfl) (.ofEnds (endsCalls_settleDemands s r))

theorem sparesOthers_portGone (s : State) (target : PortState) : SparesOthers p s (s.portGone p target) := by
  unfold State.portGone
  exact ((sparesOthers_settleDemands s p).trans (.modPort _ _)).trans (.ofFlags (onlyFlags_judgePort _ _ _))

theorem sparesOthers_mgmtStruck (s : State) (r : Port) : SparesOthers p s (s.mgmtStruck r) := .ofPorts rfl

theorem sparesOthers_leaveService (s : State) (target : PortState) : SparesOthers p s (s.leaveService p target) :=
  (((sparesOthers_portGone s target).trans (.ofReleases (entriesLeft_portFlushed s p target).toOnlyReleases)).trans
    (sparesOthers_mgmtStruck _ p)).trans (.ofReleases (onlyReleases_leaveService s p target))

theorem sparesOthers_enterService (s : State) (target : PortState) : SparesOthers p s (s.enterService p target) :=
  (((sparesOthers_settleDemands s p).trans (.modPort _ _)).trans (.ofFlags (onlyFlags_judgePort _ _ _))).trans
    (sparesOthers_judgeHold _ p)

theorem sparesOthers_raiseScore (s : State) (n : Nat) : SparesOthers p s (s.raiseScore p n) := by
  unfold State.raiseScore
  exact .ite (.ite (sparesOthers_leaveService s .isolated) ((sparesOthers_judge _ _ _).after (.modPort s _))) (.refl s)

theorem sparesOthers_lowerScore (s : State) : SparesOthers p s (s.lowerScore p) := by
  unfold State.lowerScore
  exact .ite ((sparesOthers_judge _ _ _).after (.modPort s _)) (.refl s)

theorem sparesOthers_recoveryRun (s : State) : SparesOthers p s (s.recoveryRun p) := by
  have recovered (s : State) : SparesOthers p s (s.recovered p) := by
    unfold State.recovered
    split
    · exact (sparesOthers_enterService s _).trans (sparesOthers_raise _ _)
    · exact .refl s
  by_cases isolated : (s.port p).state = .isolated
  · have tallied : SparesOthers p s (s.tallied p) := .modPort s _
    rw [recoveryRun_isolated isolated]
    exact .ite (tallied.trans (recovered _)) tallied
  · rw [State.recoveryRun, if_neg isolated]
    exact .refl s

theorem sparesOthers_clearTally (s : State) : SparesOthers p s (s.clearTally p) := .ite (.modPort s _) (.refl s)

/-! ### The line (R111 to R117) -/

theorem sparesOthers_lineIdleRun (s : State) : SparesOthers p s (s.lineIdleRun p) :=
  (sparesOthers_recoveryRun _).after ((sparesOthers_judge _ _ _).after (.after (.modPort _ _) (.modPort s _)))

theorem sparesOthers_lineCharacter (s : State) (idle : Bool) : SparesOthers p s (s.lineCharacter p idle) := by
  unfold State.lineCharacter
  exact .ite (.refl s) (.ite (sparesOthers_lineIdleRun s) (.modPort s _))

theorem sparesOthers_lineUnrecognised (s : State) : SparesOthers p s (s.lineUnrecognised p) := by
  unfold State.lineUnrecognised
  exact .ite (.refl s) ((sparesOthers_clearTally _).after (.modPort s _))

theorem sparesOthers_lineLoss (s : State) : SparesOthers p s (s.lineLoss p) :=
  (sparesOthers_clearTally _).after ((sparesOthers_judge _ _ _).after (.modPort s _))

theorem sparesOthers_badFrame (s : State) : SparesOthers p s (s.badFrame p) :=
  (sparesOthers_raiseScore _ _).after (.after (.modPort _ _) (.modPort s _))

theorem sparesOthers_setReception (s : State) (r : Reception) : SparesOthers p s (s.setReception p r) := .modPort s _

theorem sparesOthers_breakReception (s : State) : SparesOthers p s (s.breakReception p) := by
  unfold State.breakReception
  exact .ite ((sparesOthers_setReception s _).trans (sparesOthers_badFrame _)) (sparesOthers_setReception s _)

theorem sparesOthers_receiveCharacter (s : State) (c : Character) : SparesOthers p s (s.receiveCharacter p c) := by
  cases c with
  | start => exact (sparesOthers_breakReception s).trans (sparesOthers_setReception _ _)
  | data b =>
    unfold State.receiveCharacter
    dsimp only
    split
    · exact sparesOthers_setReception s _
    · exact .refl s
    · exact .refl s
  | endChar => exact .refl s
  | idleMark | control => exact sparesOthers_breakReception s

/-! ### Admission and what arrives (R96 to R98, R111, R112, R115, R116) -/

/-- R98: a frame that admission refuses is answered and counted on its own port. -/
theorem sparesOthers_answered (s : State) (c : Control) (f : PortCounters → PortCounters) :
    SparesOthers p s ((s.pushControl p c).modPortCount p f) := .after (.modPort _ _) (.modPort s _)

theorem sparesOthers_admitFrame (s : State) (b : BufIx) (image payload : List Byte) (m : Bool) :
    SparesOthers p s (s.admitFrame p b image payload m) := by
  have queued (t : State) : SparesOthers p t (t.queueAdmitted p b m) := .ite (.ofPorts rfl) (.modPort t _)
  exact ((((SparesOthers.ofHolding (onlyHolding_changeBuffer s b _)).trans (sparesOthers_answered _ _ _)).trans
    (sparesOthers_lowerScore _)).trans (queued _)).trans (sparesOthers_judgeHold _ p)

theorem sparesOthers_admission (s : State) (image payload : List Byte) : SparesOthers p s (s.admission p image payload) := by
  have busy : SparesOthers p s (s.nakBusy p) := sparesOthers_answered s _ _
  have full : SparesOthers p s (s.nakFull p) := sparesOthers_answered s _ _
  unfold State.admission
  refine .ite busy (.ite busy (.ite busy (.ite (full.trans (sparesOthers_raise _ _)) (.ite full ?_))))
  split
  · exact .refl s
  · exact sparesOthers_admitFrame s _ _ _ _

/-- The line monitor's part in an arrival that ends the FRAME in reception. -/
theorem sparesOthers_lineCharacter_ended (s : State) :
    SparesOthers p s ((s.lineCharacter p false).setReception p .none) :=
  (sparesOthers_lineCharacter s false).trans (sparesOthers_setReception _ _)

theorem sparesOthers_arriveFrame (s : State) (chars : List Byte) : SparesOthers p s (s.arriveFrame p chars) := by
  have ended := sparesOthers_lineCharacter_ended (p := p) s
  unfold State.arriveFrame
  refine .ite (ended.trans ?_) ended
  unfold State.frameEnd
  exact .ite (sparesOthers_admission _ _ _) (sparesOthers_badFrame _)

theorem sparesOthers_arriveCharacter (s : State) (c : Character) : SparesOthers p s (s.arriveCharacter p c) := by
  unfold State.arriveCharacter
  exact .ite (.refl s) (.ite (sparesOthers_arriveFrame s [])
    ((sparesOthers_receiveCharacter s c).trans (sparesOthers_lineCharacter _ _)))

theorem sparesOthers_arriveUnrecognised (s : State) : SparesOthers p s (s.arriveUnrecognised p) := by
  unfold State.arriveUnrecognised
  exact .ite (.refl s) ((sparesOthers_breakReception s).trans (sparesOthers_lineUnrecognised _))

theorem sparesOthers_arriveLoss (s : State) : SparesOthers p s (s.arriveLoss p) := by
  unfold State.arriveLoss
  refine .ite (.refl s) ?_
  split
  · exact .refl s
  · exact ((sparesOthers_elapse s _).trans (sparesOthers_breakReception _)).trans (sparesOthers_lineLoss _)

theorem sparesOthers_arriveIdleRun (s : State) : SparesOthers p s (s.arriveIdleRun p) := by
  unfold State.arriveIdleRun
  exact .ite (.refl s) ((sparesOthers_breakReception s).trans (sparesOthers_lineIdleRun _))

theorem sparesOthers_arriveBroken (s : State) (i : Interruption) : SparesOthers p s (s.arriveBroken p i) := by
  have ended := sparesOthers_lineCharacter_ended (p := p) s
  let u := (s.lineCharacter p false).setReception p .none
  have broken : SparesOthers p s (if u.receives p && ((s.lineCharacter p false).port p).reception != .passingOver
      then u.badFrame p else u) := .ite (ended.trans (sparesOthers_badFrame u)) ended
  refine broken.trans ?_
  cases i with
  | character c => exact sparesOthers_arriveCharacter _ c
  | unrecognised => exact sparesOthers_arriveUnrecognised _
  | lossOfSignal => exact sparesOthers_arriveLoss _

/-! ### The transmitter and the scheduler (R75 to R83, R86, R104, R108, R119) -/

theorem sparesOthers_attemptStart (s : State) : SparesOthers p s (s.attemptStart p) := by
  unfold State.attemptStart State.startAttempt
  split
  · split
    · exact .refl s
    · split
      · exact .refl s
      · exact .after (.modPort _ _) (sparesOthers_setQueue s p _ _)
  · exact .refl s

theorem sparesOthers_setSending (s : State) (y : Symbol) : SparesOthers p s (s.setSending p y) := .modPort s _

theorem sparesOthers_setPhase (s : State) (a : Attempt) (ph : Phase) : SparesOthers p s (s.setPhase p a ph) := .modPort s _

theorem sparesOthers_frameSent (s : State) : SparesOthers p s (s.frameSent p) := by
  unfold State.frameSent
  split
  · exact .refl s
  · split
    · exact .refl s
    · split
      · exact .refl s
      · exact sparesOthers_setPhase s _ _
      · exact (sparesOthers_setPhase _ _ _).after ((sparesOthers_setSending _ _).after (.modPort s _))

theorem sparesOthers_symbolAfter (s : State) : SparesOthers p s (s.symbolAfter p) := by
  have chosen : SparesOthers p s (s.nextSymbol p) := by
    unfold State.nextSymbol
    split
    · exact (sparesOthers_setSending _ _).after (.modPort s _)
    · split
      · exact sparesOthers_setSending s _
      · exact .ite ((sparesOthers_setSending s _).trans (sparesOthers_setPhase _ _ _)) (sparesOthers_setSending s _)
  unfold State.symbolAfter
  split
  · exact sparesOthers_setSending s _
  · exact sparesOthers_setSending s _
  · exact sparesOthers_setSending s _
  · exact chosen
  · exact chosen

theorem sparesOthers_symbolEnd (s : State) : SparesOthers p s (s.symbolEnd p) := by
  unfold State.symbolEnd
  exact .ite (.ite (.refl s) ((sparesOthers_frameSent s).trans (sparesOthers_symbolAfter _))) (sparesOthers_symbolAfter s)

/-- R80, R82: the head of a queue leaves it, is counted on its port, and its outcome is claimed. -/
theorem sparesOthers_headLeft (s : State) (k : QueueId) (e : QueueEntry) (es : List QueueEntry) (f : PortCounters → PortCounters)
    (c : Tag → Claim) : SparesOthers p s ((((s.setQueue p k es).entryLeft e).modPortCount p f).claimFor e c) := by
  have left : SparesOthers p s (((s.setQueue p k es).entryLeft e).modPortCount p f) :=
    ((sparesOthers_setQueue s p k es).trans (.ofReleases (onlyReleases_entryLeft _ e))).trans (.modPort _ _)
  refine left.trans ?_
  unfold State.claimFor
  split <;> exact .ofPorts rfl

theorem sparesOthers_startInterval (s : State) (k : QueueId) : SparesOthers p s (s.startInterval p k) := by
  cases k with
  | data q => exact .modPort s _
  | g | m => exact .refl s

theorem sparesOthers_endAttempt (s : State) : SparesOthers p s (s.endAttempt p) := .modPort s _

theorem sparesOthers_completeAck (s : State) : SparesOthers p s (s.completeAck p) := by
  unfold State.completeAck
  split
  · exact .refl s
  · split
    · exact sparesOthers_endAttempt s
    · exact (((sparesOthers_endAttempt s).trans (sparesOthers_headLeft _ _ _ _ _ _)).trans
        (sparesOthers_startInterval _ _)).trans (sparesOthers_lowerScore _)

theorem sparesOthers_completeFailure (s : State) : SparesOthers p s (s.completeFailure p) := by
  unfold State.completeFailure
  split
  · exact .refl s
  · split
    · exact sparesOthers_endAttempt s
    · exact ((sparesOthers_endAttempt s).trans (.modPort _ _)).trans
        (.ite (sparesOthers_headLeft _ _ _ _ _ _) (sparesOthers_setQueue _ p _ _))

theorem sparesOthers_failAttempt (s : State) (raises : Bool) : SparesOthers p s (s.failAttempt p raises) := by
  unfold State.failAttempt
  exact .ite ((sparesOthers_completeFailure s).trans (sparesOthers_raiseScore _ _)) (sparesOthers_completeFailure s)

theorem sparesOthers_ackReceived (s : State) : SparesOthers p s (s.ackReceived p) :=
  (sparesOthers_arriveCharacter s _).trans (.ite (sparesOthers_completeAck _) (.refl _))

theorem sparesOthers_nakReceived (s : State) (r : NakReason) : SparesOthers p s (s.nakReceived p r) :=
  (sparesOthers_arriveCharacter s _).trans (.ite (sparesOthers_failAttempt _ _) (.refl _))

theorem sparesOthers_strayAnswer (s : State) : SparesOthers p s (s.strayAnswer p) :=
  .ite (.refl s) (sparesOthers_arriveCharacter s _)

theorem sparesOthers_ackWindowExpiry (s : State) : SparesOthers p s (s.ackWindowExpiry p) := by
  unfold State.ackWindowExpiry
  split
  · exact .refl s
  · split
    · exact (sparesOthers_elapse s _).trans (sparesOthers_failAttempt _ true)
    · exact .refl s
    · exact .refl s

theorem sparesOthers_holdReceived (s : State) (d : Byte) : SparesOthers p s (s.holdReceived p d) :=
  (sparesOthers_arriveCharacter s _).trans (.ite (.modPort _ _) (.refl _))

theorem sparesOthers_partnerHoldExpiry (s : State) : SparesOthers p s (s.partnerHoldExpiry p) := by
  unfold State.partnerHoldExpiry
  split
  · exact .refl s
  · exact (sparesOthers_elapse s _).trans (.modPort _ _)

theorem sparesOthers_intervalExpiry (s : State) (q : DataQ) : SparesOthers p s (s.intervalExpiry p q) := by
  unfold State.intervalExpiry
  split
  · exact .refl s
  · exact (sparesOthers_elapse s _).trans (.modPort _ _)

theorem sparesOthers_holdResendExpiry (s : State) : SparesOthers p s (s.holdResendExpiry p) := by
  unfold State.holdResendExpiry
  split
  · exact .refl s
  · exact (sparesOthers_elapse s _).trans (.after (.modPort _ _) (.modPort _ _))

/-! ### Decisions (R7, R18, R40, R43, R54) -/

theorem sparesOthers_discardedWith (s : State) (e : EventFlag) : SparesOthers p s (s.discardedWith e) :=
  (sparesOthers_raise s _).trans (.ofPorts rfl)

theorem sparesOthers_refuse (s : State) (r : Port) (h : Header) (st : Status) (d : Half) :
    SparesOthers p s (s.refuse r h st d) := by
  have told : SparesOthers p s (s.refusalTold r h st d) := .ofPorts (onlyFlags_refusalTold s r st d).ports
  by_cases request : h.kind.isRequest = true
  · rw [refuse_request s r st d request]
    refine told.trans ?_
    unfold State.offerReply
    split
    · next delivered => exact sparesOthers_deliver delivered
    · exact sparesOthers_raise _ _
  · rwa [refuse_other s r st d request]

theorem sparesOthers_forwardRequest (s : State) (r : Port) (b : BufIx) (h : Header) (i : RuleIx) (f : Forwarding) :
    SparesOthers p s (s.forwardRequest r b h i f).1 := by
  have opened (i : CallIx) (c : CallRecord) : SparesOthers p s (s.openRecord i c) := .ofPorts (ports_openRecord s i c)
  unfold State.forwardRequest
  split
  · exact .refl s
  · dsimp only
    split
    · next delivered => exact ((opened _ _).trans (sparesOthers_deliver delivered)).trans (.ofPorts rfl)
    · exact (opened _ _).trans (.ofEnds (endsCalls_freed_answered _ _ _ _))

theorem sparesOthers_forwardNotice (s : State) (b : BufIx) (h : Header) (r : RuleIx) (f : Forwarding) :
    SparesOthers p s (s.forwardNotice b h r f).1 := by
  unfold State.forwardNotice
  split
  · next delivered => exact (sparesOthers_deliver delivered).trans (.ofPorts rfl)
  · exact .ofPorts rfl

theorem sparesOthers_matchReply (s : State) (r : Port) (b : BufIx) (h : Header) (i : RuleIx) (len : Nat) :
    SparesOthers p s (s.matchReply r b h i len).1 := by
  have delivered (s : State) (c : CallRecord) : SparesOthers p s (s.deliverReply b h i c len).1 := by
    unfold State.deliverReply
    split
    · next delivered => exact (sparesOthers_deliver delivered).trans (.ofPorts rfl)
    · exact sparesOthers_discardedWith s _
  unfold State.matchReply
  split
  · exact sparesOthers_discardedWith s _
  · split
    · exact SparesOthers.trans (.ofEnds (endsCalls_withdrawn_freed s _)) (delivered _ _)
    · exact sparesOthers_discardedWith s _

theorem sparesOthers_mirrorCopy (s : State) (r : Port) (b : BufIx) (i : RuleIx) (o : Byte) :
    SparesOthers p s (s.mirrorCopy r b i o) := by
  rcases mirrorCopy_cases s r b i o with e | ⟨m, e⟩ | e <;> rw [e]
  · exact .refl s
  · exact (sparesOthers_setQueue s m .m _).trans (.ofPorts rfl)
  · exact (sparesOthers_raise s _).trans (.ofPorts rfl)

theorem sparesOthers_applySettled (s : State) (r : Port) (b : BufIx) (h : Header) (x : Settled) :
    SparesOthers p s (s.applySettled r b h x) := by
  cases x with
  | unscanned => exact .ofPorts rfl
  | noRule => exact sparesOthers_discardedWith s _
  | discard i => exact (sparesOthers_mirrorCopy _ r b i _).after (.ofPorts rfl)
  | shortReply i => exact (sparesOthers_discardedWith s _).trans (sparesOthers_mirrorCopy _ r b i _)
  | refusal i st d g => exact (sparesOthers_refuse s r h st d).trans (sparesOthers_mirrorCopy _ r b i _)
  | matching i len => exact (sparesOthers_matchReply s r b h i len).trans (sparesOthers_mirrorCopy _ r b i _)
  | forward i f =>
    exact .ite ((sparesOthers_forwardRequest s r b h i f).trans (sparesOthers_mirrorCopy _ r b i _))
      ((sparesOthers_forwardNotice s b h i f).trans (sparesOthers_mirrorCopy _ r b i _))

theorem sparesOthers_decisionStep (s : State) : SparesOthers p s (s.decisionStep p) := by
  unfold State.decisionStep
  split
  · exact .refl s
  · exact (SparesOthers.trans (.modPort s _) (sparesOthers_applySettled _ p _ _ _)).trans (.ofHolding (onlyHolding_release _ _))

/-! ### The commands of a port -/

/-- R173: a command that is taken only while the reset pin is released. -/
theorem sparesOthers_running {f : State → State} (h : ∀ s, SparesOthers p s (f s)) (s : State) :
    ∃ t, running f s = .next t ∧ SparesOthers p s t := by
  unfold running
  split
  · exact ⟨s, rfl, .refl s⟩
  · exact ⟨f s, rfl, h s⟩

end

/-- Every command of port p spares the other ports. -/
theorem sparesOthers_exec {c : Instr} {p : Port} (named : portOfCommand c = some p) (s : State) :
    ∃ t, exec c s = .next t ∧ SparesOthers p s t := by
  have same {r : Port} (named : some r = some p) : r = p := Option.some.inj named
  cases c with
  | frameReceived r chars => exact same named ▸ sparesOthers_running (sparesOthers_arriveFrame · chars) s
  | brokenFrame r i => exact same named ▸ sparesOthers_running (fun s => .ite (sparesOthers_arriveBroken s i) (.refl s)) s
  | ackReceived r => exact same named ▸ sparesOthers_running sparesOthers_ackReceived s
  | nakReceived r reason => exact same named ▸ sparesOthers_running (sparesOthers_nakReceived · reason) s
  | ackWindowExpiry r => exact same named ▸ sparesOthers_running sparesOthers_ackWindowExpiry s
  | strayAnswer r a => exact same named ▸ sparesOthers_running sparesOthers_strayAnswer s
  | holdReceived r d => exact same named ▸ sparesOthers_running (sparesOthers_holdReceived · d) s
  | partnerHoldExpiry r => exact same named ▸ sparesOthers_running sparesOthers_partnerHoldExpiry s
  | idleRun r => exact same named ▸ sparesOthers_running sparesOthers_arriveIdleRun s
  | lossOfSignal r => exact same named ▸ sparesOthers_running sparesOthers_arriveLoss s
  | unrecognisedCharacter r => exact same named ▸ sparesOthers_running sparesOthers_arriveUnrecognised s
  | characterRecognised r k => exact same named ▸ sparesOthers_running (sparesOthers_arriveCharacter · k) s
  | transmitterSymbolEnd r => exact same named ▸ sparesOthers_running sparesOthers_symbolEnd s
  | frameSent r => exact same named ▸ sparesOthers_running sparesOthers_frameSent s
  | attemptStart r => exact same named ▸ sparesOthers_running sparesOthers_attemptStart s
  | intervalTimerExpiry r q => exact same named ▸ sparesOthers_running (sparesOthers_intervalExpiry · q) s
  | holdResendExpiry r => exact same named ▸ sparesOthers_running sparesOthers_holdResendExpiry s
  | decision r => exact same named ▸ sparesOthers_running sparesOthers_decisionStep s
  | _ => contradiction

end Sys2Proof.Machine

open Sys2Proof Sys2Proof.Machine

/-- Settles O4: a port's command reaches the other ports in their queues, timers and own HOLDING alone. -/
theorem otherPortsKeepTheirOwnState : Obligations.OtherPortsKeepTheirOwnState := by
  intro c p s named
  obtain ⟨t, ran, spared⟩ := sparesOthers_exec named s
  refine ⟨t, ran, fun q other => ?_⟩
  have own {α : Type} (view : PortSt → α) : view (t.port q).own = view (s.port q).own := congrArg view (spared q other)
  exact ⟨own PortSt.state, own PortSt.returnState, own PortSt.recoveryTally, own PortSt.score, own PortSt.linkUp,
    own PortSt.idleCount, own PortSt.reception, own PortSt.sending, own PortSt.awaiting, own PortSt.counters⟩
end

section
/-! Operations that read (R150 to R153): what IDENTIFY, READ TABLE, READ STATE and READ CALL answer, and the statements about them. -/

namespace Sys2Proof.Machine
open Sys2Proof

/-! ### READ TABLE (R151) -/

section
variable {s : State} {q : Request}

theorem opReadTable_badTable (unnamed : TableName.ofCode (byteAt q.payload 0) = none) :
    opReadTable s q = refusedWith s .badTable := by
  unfold opReadTable
  rw [unnamed]

variable {t : TableName} (named : TableName.ofCode (byteAt q.payload 0) = some t)
include named

theorem opReadTable_badIndex (outside : t.size ≤ (halfAt q.payload 1).toNat) :
    opReadTable s q = refusedWith s .badIndex := by
  unfold opReadTable
  rw [named]
  exact if_pos outside

variable (inside : (halfAt q.payload 1).toNat < t.size)
include inside

theorem opReadTable_badValue (empty : byteAt q.payload 3 = 0) : opReadTable s q = refusedWith s .badValue := by
  unfold opReadTable
  rw [named]
  exact (if_neg (Nat.not_le.mpr inside)).trans (if_pos empty)

theorem opReadTable_done (counted : byteAt q.payload 3 ≠ 0) : opReadTable s q
    = doneWith s ([byteAt q.payload 0, natByte (entriesReturned t (halfAt q.payload 1).toNat (byteAt q.payload 3).toNat)]
        ++ be16 (natHalf ((halfAt q.payload 1).toNat
          + entriesReturned t (halfAt q.payload 1).toNat (byteAt q.payload 3).toNat))
        ++ (List.range (entriesReturned t (halfAt q.payload 1).toNat (byteAt q.payload 3).toNat)).flatMap
          (fun k => s.imageAt t ((halfAt q.payload 1).toNat + k))) := by
  unfold opReadTable
  rw [named]
  exact (if_neg (Nat.not_le.mpr inside)).trans (if_neg counted)

end

theorem opReadTable_owed (s : State) (q : Request) : (opReadTable s q).owed = none := by
  unfold opReadTable
  split
  · rfl
  · split
    · rfl
    · split <;> rfl

/-- R151: the 44 bytes of a reply have room for an image of every table. -/
theorem one_le_entriesReturned {t : TableName} {first count : Nat} (inside : first < t.size) (counted : 0 < count) :
    1 ≤ entriesReturned t first count := by
  have room : 1 ≤ Config.readTableRoom / t.imageLength := by cases t <;> decide
  exact Nat.le_min.mpr ⟨counted, Nat.le_min.mpr ⟨Nat.sub_pos_of_lt inside, room⟩⟩

/-! ### READ STATE and READ CALL (R152, R153) -/

/-- Section 11.4: the sum of 1, 2 and 4 for what a port reports, computed as a number or as a byte. -/
theorem natByte_sum_of_marks (up : Bool) (own partner : Option Nat) :
    natByte ((if up then 1 else 0) + (if own.isSome then 2 else 0) + (if partner.isSome then 4 else 0))
      = (if up then 1 else 0) + (if own ≠ none then 2 else 0) + (if partner ≠ none then 4 else 0) := by
  cases up <;> cases own <;> cases partner <;> rfl

theorem opReadCall_badIndex {s : State} {q : Request} (index : indexOf (byteAt q.payload 0) = none) :
    opReadCall s q = refusedWith s .badIndex := by
  unfold opReadCall
  rw [index]

theorem opReadCall_done {s : State} {q : Request} {i : CallIx} (index : indexOf (byteAt q.payload 0) = some i) :
    opReadCall s q = doneWith s (recordReport (s.record i)) := by
  unfold opReadCall
  rw [index]

theorem opReadCall_owed (s : State) (q : Request) : (opReadCall s q).owed = none := by
  unfold opReadCall
  split <;> rfl

end Sys2Proof.Machine

open Sys2Proof Sys2Proof.Machine

/-- Settles O40: IDENTIFY runs on the state without its head, and answers from the constants of the part and the settings. -/
theorem identifyReturnsIdentity : Obligations.IdentifyReturnsIdentity := by
  intro s o e runs
  exact ⟨opIdentify s.dropHead (s.request e), exec_rowOf_of_runs runs o, rfl, rfl, rfl, rfl, rfl, rfl⟩

/-- Settles O41: READ TABLE is refused by the first check that fails, or returns the entries its room allows. -/
theorem readTableReturnsEntries : Obligations.ReadTableReturnsEntries := by
  intro s o e runs pl first
  refine ⟨opReadTable s.dropHead (s.request e), exec_rowOf_of_runs runs o, state_opReadTable _ _, opReadTable_owed _ _,
    fun unnamed => ?_, fun name named => ⟨fun outside => ?_, fun inside empty => ?_, fun inside counted => ?_⟩⟩
  · rw [opReadTable_badTable unnamed]
    exact ⟨rfl, rfl, rfl⟩
  · rw [opReadTable_badIndex named outside]
    exact ⟨rfl, rfl, rfl⟩
  · rw [opReadTable_badValue named inside empty]
    exact ⟨rfl, rfl, rfl⟩
  · rw [opReadTable_done named inside counted]
    have some : 0 < (byteAt pl 3).toNat := Nat.pos_of_ne_zero fun zero => counted (BitVec.eq_of_toNat_eq zero)
    exact ⟨one_le_entriesReturned inside some, rfl, rfl⟩

/-- Settles O42: the two reports byte by byte, each beside the definition that makes it. -/
theorem readStateAndReadCallReport : Obligations.ReadStateAndReadCallReport := by
  constructor
  · intro s o e runs ten
    have reported (p : Port) : portReport s.dropHead p = ten p := by
      have code : (s.port p).state.code
          = match (s.port p).state with | .disabled => 0 | .config => 1 | .listen => 2 | .forward => 3 | .isolated => 4 := by
        cases (s.port p).state <;> rfl
      have marks := natByte_sum_of_marks (s.port p).linkUp (s.port p).ownHold (s.port p).partnerHold
      exact congrArg₂ List.cons code (congrArg (List.cons _) (congrArg₂ List.cons marks rfl))
    have levels : natByte ((if s.levelHolds .poolLow then 1 else 0) + (if s.levelHolds .callsHigh then 2 else 0))
        = natByte ((if s.freeCount ≤ s.settings.lowMark.toNat then 1 else 0)
          + (if s.settings.highMark.toNat ≤ s.recordsInUse then 2 else 0)) := by
      simp only [State.levelHolds, decide_eq_true_eq]
    refine ⟨opReadState s.dropHead (s.request e), exec_rowOf_of_runs runs o, rfl, rfl, rfl, ?_, rfl⟩
    rw [← reported, ← reported, ← reported, ← reported, ← levels]
    rfl
  · intro s o e runs i
    refine ⟨opReadCall s.dropHead (s.request e), exec_rowOf_of_runs runs o, state_opReadCall _ _, opReadCall_owed _ _,
      fun outside => ?_, fun k named => ?_⟩
    · rw [opReadCall_badIndex (indexOf_eq_none (by bv_omega))]
      exact ⟨rfl, rfl, rfl⟩
    · rw [opReadCall_done (indexOf_eq_some named)]
      have code : (s.record k).state.code = match (s.record k).state with | .free => 0 | .queued => 1 | .waiting => 2 := by
        cases (s.record k).state <;> rfl
      exact ⟨rfl, rfl, congrArg₂ List.cons code rfl⟩
end

section
/-! CLEAR TABLE (R157): its checks, the range it sets to reset images, and the statement about it. -/

namespace Sys2Proof.Machine
open Sys2Proof

/-- Section 11.4: the codes of the two tables that CLEAR TABLE clears. -/
theorem ofCode_clearable {b : Byte} (rule : b ≠ 1) (service : b ≠ 2) :
    TableName.ofCode b ≠ some .rule ∧ TableName.ofCode b ≠ some .service := by
  unfold TableName.ofCode
  rw [if_neg rule, if_neg service]
  split
  · simp
  · split
    · simp
    · split <;> simp

section
variable {s : State} {q : Request}

theorem opClearTable_badTable (rule : byteAt q.payload 0 ≠ 1) (service : byteAt q.payload 0 ≠ 2) :
    opClearTable s q = refusedWith s .badTable := by
  obtain ⟨noRule, noService⟩ := ofCode_clearable rule service
  unfold opClearTable
  split
  · next named => exact absurd named noRule
  · next named => exact absurd named noService
  all_goals rfl

theorem opClearTable_rules (named : byteAt q.payload 0 = 1) : opClearTable s q =
    if (byteAt q.payload 2).toNat < (byteAt q.payload 1).toNat then refusedWith s .badIndex
    else doneEmpty (s.setTables (fun t => { t with
      rules := clearRange t.rules (byteAt q.payload 1).toNat (byteAt q.payload 2).toNat RuleEntry.reset })) := by
  simp only [opClearTable, named]
  rfl

theorem opClearTable_services (named : byteAt q.payload 0 = 2) : opClearTable s q =
    if (byteAt q.payload 2).toNat < (byteAt q.payload 1).toNat ∨ 127 < (byteAt q.payload 2).toNat then refusedWith s .badIndex
    else doneEmpty (s.setTables (fun t => { t with
      services := clearRange t.services (byteAt q.payload 1).toNat (byteAt q.payload 2).toNat ServiceEntry.reset })) := by
  simp only [opClearTable, named]
  rfl

end

theorem opClearTable_owed (s : State) (q : Request) : (opClearTable s q).owed = none := by
  unfold opClearTable
  dsimp only
  split
  · split <;> rfl
  · split <;> rfl
  all_goals rfl

/-- R30, R157: a target in its reset image is not valid. -/
theorem targetUsable_of_reset {s : State} {gate : ServiceEntry} (reset : s.service gate.target = ServiceEntry.reset) :
    s.targetUsable gate = false := by
  rw [← Bool.not_eq_true, targetUsable_iff, reset]
  rintro ⟨valid, -⟩
  exact nomatch valid

end Sys2Proof.Machine

open Sys2Proof Sys2Proof.Machine

/-- Settles O49: CLEAR TABLE is refused by its table code or its range, or sets the range of one of the two tables. -/
theorem clearTableResetsRange : Obligations.ClearTableResetsRange := by
  intro s o e runs pl first last others
  refine ⟨opClearTable s.dropHead (s.request e), exec_rowOf_of_runs runs o, opClearTable_owed _ _, fun ⟨rule, service⟩ => ?_,
    fun named outside => ?_, fun named rising => ?_, fun named rising inside => ?_, fun _ _ => rfl,
    fun _ => targetUsable_of_reset⟩
  · rw [opClearTable_badTable rule service]
    exact ⟨rfl, rfl, rfl⟩
  · have small : last ≤ 255 := Nat.le_of_lt_succ (byteAt pl 2).isLt
    rcases named with named | named
    · have falling : last < first := by
        rcases outside with falling | ⟨-, high⟩ | ⟨other, -⟩
        · exact falling
        · exact absurd high (Nat.not_lt.mpr small)
        · exact absurd (named.symm.trans other) (by decide)
      rw [opClearTable_rules named, if_pos falling]
      exact ⟨rfl, rfl, rfl⟩
    · have outside : last < first ∨ 127 < last := outside.imp_right fun high => high.elim
        (fun ⟨other, _⟩ => absurd (named.symm.trans other) (by decide)) And.right
      rw [opClearTable_services named, if_pos outside]
      exact ⟨rfl, rfl, rfl⟩
  · rw [opClearTable_rules named, if_neg (Nat.not_lt.mpr rising)]
    exact ⟨rfl, rfl, by simp [others, doneEmpty, State.settings], by simp [doneEmpty], look_clearRange _ _ _ _⟩
  · rw [opClearTable_services named, if_neg (fun bad => bad.elim (Nat.not_lt.mpr rising) (Nat.not_lt.mpr inside))]
    exact ⟨rfl, rfl, by simp [others, doneEmpty, State.settings], by simp [doneEmpty], look_clearRange _ _ _ _⟩
end

section
/-! PROBE (R159): its checks, how far a refusal came, and the statement about it. -/

namespace Sys2Proof.Machine
open Sys2Proof

/-! ### How far a refusal came (R159) -/

/-- R159: a refusal tells the serving entry once step 4 has passed, the carried ring once step 7 has, the egress port once step 9
has and the outgoing length once the rule stage has. -/
structure ProgressTold (st : Status) (g : Progress) : Prop where
  serving : g.serving = none ↔ st = .rule ∨ st = .short ∨ st = .noService
  carried : g.carried = none ↔ st ≠ .tooLong ∧ st ≠ .portDown ∧ st ≠ .noRecord
  egress : g.egress = none ↔ st ≠ .noRecord
  length : g.length = none ↔ st = .rule ∨ st = .short

theorem progressTold_ruleStage {st : Status} (refused : st = .rule ∨ st = .short) :
    ProgressTold st ⟨none, none, none, none⟩ := by
  rcases refused with rfl | rfl <;> constructor <;> simp

theorem progressTold_step4 (len : Nat) : ProgressTold .noService ⟨none, none, none, some len⟩ := by
  constructor <;> simp

theorem progressTold_steps5to7 {st : Status} (refused : st = .notPresent ∨ st = .access ∨ st = .ring) (i : SvcIx) (len : Nat) :
    ProgressTold st ⟨some i, none, none, some len⟩ := by
  rcases refused with rfl | rfl | rfl <;> constructor <;> simp

theorem progressTold_steps8and9 {st : Status} (refused : st = .tooLong ∨ st = .portDown) (i : SvcIx) (ring : RingNo) (len : Nat) :
    ProgressTold st ⟨some i, some ring, none, some len⟩ := by
  rcases refused with rfl | rfl <;> constructor <;> simp

theorem progressTold_step10 (i : SvcIx) (ring : RingNo) (p : Port) (len : Nat) :
    ProgressTold .noRecord ⟨some i, some ring, some p, some len⟩ := by
  constructor <;> simp

/-- A settled outcome, if it is a refusal, tells how far it came. -/
def Settled.tellsProgress : Settled → Prop
  | .refusal _ st _ g => ProgressTold st g
  | _ => True

theorem tellsProgress_lastSteps (s : State) (r : RuleIx) (h : Header) (f : Forwarding) :
    (s.lastSteps r h f).tellsProgress := by
  unfold State.lastSteps
  split
  · exact progressTold_steps8and9 (.inl rfl) _ _ _
  · split
    · exact progressTold_steps8and9 (.inr rfl) _ _ _
    · split
      · exact progressTold_step10 _ _ _ _
      · trivial

theorem tellsProgress_serviceStage (s : State) (r : RuleIx) (h : Header) (ring : RingNo) (len : Nat) :
    (s.serviceStage r h ring len).tellsProgress := by
  unfold State.serviceStage
  split
  · exact progressTold_step4 len
  · split
    · exact progressTold_step4 len
    · split
      · exact progressTold_steps5to7 (.inl rfl) _ _
      · split
        · split
          · exact progressTold_steps5to7 (.inr (.inr rfl)) _ _
          · exact tellsProgress_lastSteps s r h _
        · exact progressTold_steps5to7 (.inr (.inl rfl)) _ _

theorem tellsProgress_ruleStage (s : State) (r : RuleIx) (h : Header) (ring : RingNo) : (s.ruleStage r h ring).tellsProgress := by
  unfold State.ruleStage
  split
  · trivial
  · split
    · trivial
    · exact progressTold_ruleStage (.inl rfl)
  · split
    · split
      · trivial
      · exact progressTold_ruleStage (.inr rfl)
    · split
      · trivial
      · exact tellsProgress_serviceStage s r h ring _

theorem tellsProgress_judgeArrival (s : State) (p : Port) (h : Header) : (s.judgeArrival p h).tellsProgress := by
  unfold State.judgeArrival
  split
  · trivial
  · split
    · trivial
    · exact tellsProgress_ruleStage s _ h _

/-! ### The checks of PROBE (R159) -/

/-- R159: a field of the hypothetical arrival that lies out of its range. -/
def Request.probesBadValue (q : Request) : Prop :=
  4095 < halfAt q.payload 3 ∨ 3 < byteAt q.payload 5 ∨ 3 < byteAt q.payload 6 ∨ 48 < byteAt q.payload 7

section
variable {s : State} {q : Request}

theorem opProbe_badIndex (index : portOf (byteAt q.payload 0) = none) : opProbe s q = refusedWith s .badIndex := by
  unfold opProbe
  rw [index]

variable {p : Port} (index : portOf (byteAt q.payload 0) = some p)
include index

theorem opProbe_badValue (bad : q.probesBadValue) : opProbe s q = refusedWith s .badValue := by
  unfold opProbe
  rw [index]
  exact if_pos bad

theorem opProbe_done (good : ¬ q.probesBadValue) : opProbe s q = doneWith s (probe s p (probeHeader q.payload)).encode := by
  unfold opProbe
  rw [index]
  exact if_neg good

end

theorem opProbe_owed (s : State) (q : Request) : (opProbe s q).owed = none := by
  unfold opProbe
  split
  · rfl
  · split <;> rfl

theorem portOf_eq_some {b : Byte} (h : b ≤ 3) : ∃ p, portOf b = some p := ⟨_, dif_pos (by bv_omega)⟩

/-- A decision, and so PROBE, reads nothing of the management input queue. -/
theorem probe_dropHead (s : State) (p : Port) (h : Header) : probe s.dropHead p h = probe s p h := rfl

theorem probe_own {s : State} {h : Header} (own : h.dst = s.settings.gsn) (p : Port) : probe s p h = probeNothing 253 :=
  if_pos own

theorem probe_foreign {s : State} {h : Header} (foreign : h.dst ≠ s.settings.gsn) (p : Port) :
    probe s p h = probeSettled s (s.judgeArrival p h) := if_neg foreign

end Sys2Proof.Machine

open Sys2Proof Sys2Proof.Machine

/-- Settles O44: PROBE is refused by the first check that fails, or tells the outcome that judgeArrival settles for a decision. -/
theorem probeForecastsDecision : Obligations.ProbeForecastsDecision := by
  intro s o e runs pl h bad
  refine ⟨opProbe s.dropHead (s.request e), exec_rowOf_of_runs runs o, state_opProbe _ _, opProbe_owed _ _, fun outside => ?_,
    fun inside isBad => ?_, fun p named good => ?_⟩
  · rw [opProbe_badIndex (portOf_eq_none outside)]
    exact ⟨rfl, rfl, rfl⟩
  · obtain ⟨p, index⟩ := portOf_eq_some inside
    rw [opProbe_badValue index isBad]
    exact ⟨rfl, rfl, rfl⟩
  · have index : portOf (byteAt (s.request e).payload 0) = some p := named ▸ portOf_portByte p
    rw [opProbe_done index good, probe_dropHead]
    refine ⟨rfl, rfl, fun own => ?_, fun foreign => ?_⟩
    · rw [probe_own (h := probeHeader pl) own]
      rfl
    · rw [probe_foreign (h := probeHeader pl) foreign]
      have told := tellsProgress_judgeArrival s p h
      refine ⟨?_, ?_, fun r st d g settled => ?_, fun r len settled => ?_, fun r f settled => ?_⟩
      · rintro (settled | settled) <;> (rw [show s.judgeArrival p (probeHeader pl) = _ from settled]; rfl)
      · rintro r (settled | settled) <;> (rw [show s.judgeArrival p (probeHeader pl) = _ from settled]; rfl)
      · rw [settled] at told
        refine ⟨?_, told.serving, told.carried, told.egress, told.length⟩
        rw [show s.judgeArrival p (probeHeader pl) = _ from settled]
        obtain ⟨serving, carried, egress, length⟩ := g
        cases serving <;> cases carried <;> cases egress <;> cases length <;> rfl
      · rw [show s.judgeArrival p (probeHeader pl) = _ from settled]
        rfl
      · rw [show s.judgeArrival p (probeHeader pl) = _ from settled]
        rfl
end

section
/-! What is written by its owners alone (R92, R94, R151, R166, R171): the time base, the last-refusal capture and what a buffer
holds besides its hold count, which every operation keeps but the few that own them; and the statement about every command. -/

namespace Sys2Proof.Machine
open Sys2Proof

/-! ### The parts that have an owner -/

/-- What a buffer holds besides its hold count (R92). -/
def Buffer.contents (x : Buffer) : Buffer := { x with holds := 0 }

/-- From s to t those of the three parts are as they were that are asked for: the time base, the last-refusal capture, and what
every buffer holds. -/
structure SparesParts (time capture contents : Bool) (s t : State) : Prop where
  timeBase : time = true → t.timeBase = s.timeBase
  lastRefusal : capture = true → t.events.capture = s.events.capture
  buffers : contents = true → ∀ b, (t.buffer b).contents = (s.buffer b).contents

namespace SparesParts
variable {time capture contents : Bool}

theorem refl (s : State) : SparesParts time capture contents s s := ⟨fun _ => rfl, fun _ => rfl, fun _ _ => rfl⟩

theorem trans {s t u : State} (h : SparesParts time capture contents s t) (k : SparesParts time capture contents t u) :
    SparesParts time capture contents s u where
  timeBase := fun asked => (k.timeBase asked).trans (h.timeBase asked)
  lastRefusal := fun asked => (k.lastRefusal asked).trans (h.lastRefusal asked)
  buffers := fun asked b => (k.buffers asked b).trans (h.buffers asked b)

/-- `trans` with the later change named first. -/
theorem after {s t u : State} (k : SparesParts time capture contents t u) (h : SparesParts time capture contents s t) :
    SparesParts time capture contents s u := h.trans k

theorem ite {s t u : State} {c : Prop} [Decidable c] (h : SparesParts time capture contents s t)
    (k : SparesParts time capture contents s u) : SparesParts time capture contents s (if c then t else u) := by
  split
  · exact h
  · exact k

theorem foldl {α : Type} {f : State → α → State} (h : ∀ s a, SparesParts time capture contents s (f s a)) (l : List α)
    (s : State) : SparesParts time capture contents s (l.foldl f s) := by
  induction l generalizing s with
  | nil => exact refl s
  | cons a l ih => exact (h s a).trans (ih (f s a))

/-- A change that reaches none of the three parts. -/
theorem ofSame {s t : State} (timeBase : t.timeBase = s.timeBase) (lastRefusal : t.events.capture = s.events.capture)
    (pool : t.pool = s.pool) : SparesParts time capture contents s t :=
  ⟨fun _ => timeBase, fun _ => lastRefusal, fun _ b => by rw [State.buffer, pool]; rfl⟩

theorem ofFlags {s t : State} (h : OnlyFlags s t) : SparesParts time capture contents s t :=
  ofSame h.timeBase h.capture h.pool

/-- A change that may also judge ports for own HOLDING. -/
theorem ofHolding {s t : State} (h : OnlyHolding s t) (buffers : ∀ b, (t.buffer b).contents = (s.buffer b).contents) :
    SparesParts time capture contents s t := ⟨fun _ => h.timeBase, fun _ => h.capture, fun _ => buffers⟩

/-- A change of what ports hold of their own. -/
theorem modPort (s : State) (p : Port) (f : PortSt → PortSt) : SparesParts time capture contents s (s.modPort p f) :=
  ofSame rfl rfl rfl

/-- A change of one buffer, which is free to change where the contents are not asked for. -/
theorem modBuffer (s : State) (b : BufIx) (f : Buffer → Buffer)
    (same : contents = true → (f (s.buffer b)).contents = (s.buffer b).contents) :
    SparesParts time capture contents s (s.modBuffer b f) := by
  refine ⟨fun _ => rfl, fun _ => rfl, fun asked c => ?_⟩
  rw [State.buffer_modBuffer]
  split
  · next named => rw [← named, same asked]
  · rfl

end SparesParts

section
variable {time capture contents : Bool}

/-! ### Buffers, own HOLD and queues -/

theorem sparesParts_raise (s : State) (f : Flag) : SparesParts time capture contents s (s.raise f) :=
  .ofFlags (onlyFlags_raise s f)

theorem sparesParts_judge (s : State) (l : Level) (was : Bool) : SparesParts time capture contents s (s.judge l was) :=
  .ofFlags (onlyFlags_judge s l was)

theorem sparesParts_judgeHold (s : State) (p : Port) : SparesParts time capture contents s (s.judgeHold p) :=
  .ofHolding (onlyHolding_judgeHold s p) fun b => by rw [buffer_judgeHold]

/-- R94: a release lowers the hold count of its buffer and leaves what the buffer holds. -/
theorem sparesParts_release (s : State) (b : BufIx) : SparesParts time capture contents s (s.release b) := by
  refine .ofHolding (onlyHolding_release s b) fun c => ?_
  rw [buffer_release]
  split
  · next named =>
    rw [← named]
    rfl
  · rfl

theorem sparesParts_releaseOpt (s : State) (b : Option BufIx) : SparesParts time capture contents s (s.releaseOpt b) := by
  cases b with
  | none => exact .refl s
  | some b => exact sparesParts_release s b

theorem sparesParts_holdOpt (s : State) (b : Option BufIx) : SparesParts time capture contents s (s.holdOpt b) := by
  cases b with
  | none => exact .refl s
  | some b => exact .modBuffer s b (fun x => { x with holds := x.holds + 1 }) fun _ => rfl

theorem sparesParts_deliver {s t : State} {p : Port} {k : QueueId} {e : QueueEntry} (delivered : s.deliver p k e = some t) :
    SparesParts time capture contents s t := by
  obtain ⟨-, rfl⟩ := deliver_eq_some.mp delivered
  exact (sparesParts_holdOpt _ _).after (.modPort s p _)

theorem sparesParts_reportRestart (s : State) : SparesParts time capture contents s s.reportRestart := by
  unfold State.reportRestart
  split <;> exact .ofSame rfl rfl rfl

theorem sparesParts_entryLeft (s : State) (e : QueueEntry) : SparesParts time capture contents s (s.entryLeft e) :=
  (sparesParts_releaseOpt _ e.buffer).after (.ite (sparesParts_reportRestart s) (.refl s))

theorem sparesParts_offerReply (s : State) (p : Port) (e : QueueEntry) :
    SparesParts time capture contents s (s.offerReply p e) := by
  unfold State.offerReply
  split
  · next delivered => exact sparesParts_deliver delivered
  · exact sparesParts_raise s _

theorem sparesParts_abortQueue (s : State) (p : Port) (k : QueueId) : SparesParts time capture contents s (s.abortQueue p k) := by
  refine (SparesParts.foldl (fun s e => ?_) _ _).after (.modPort s p _)
  have left : SparesParts time capture contents s
      ((s.modPortCount p (fun c => { c with txDropped := c.txDropped + 1 })).entryLeft e) :=
    (sparesParts_entryLeft _ e).after (.modPort s p _)
  unfold State.abortEntry
  split
  · exact left.trans (.ofSame rfl rfl rfl)
  · exact left

/-! ### The call table -/

theorem sparesParts_freeRecord (s : State) (i : CallIx) : SparesParts time capture contents s (s.freeRecord i) := by
  unfold State.freeRecord
  exact .ite ((sparesParts_judge _ _ _).after (.ofSame rfl rfl rfl)) (.refl s)

theorem sparesParts_withdrawn_freed (s : State) (i : CallIx) :
    SparesParts time capture contents s ((s.withdrawIfQueued i).freeRecord i) :=
  (sparesParts_freeRecord _ i).after (.ite (.ofSame rfl rfl rfl) (.refl s))

theorem sparesParts_freed_answered (s : State) (i : CallIx) (r : CallRecord) (st : Status) :
    SparesParts time capture contents s ((s.freeRecord i).sendCallReply r st) :=
  (sparesParts_freeRecord s i).trans (sparesParts_offerReply _ _ _)

theorem sparesParts_portDownRecord (p : Port) (s : State) (i : CallIx) :
    SparesParts time capture contents s (s.portDownRecord p i) := by
  unfold State.portDownRecord
  exact .ite (sparesParts_freed_answered s i _ _)
    (.ite (sparesParts_withdrawn_freed s i) (.ite (sparesParts_freeRecord s i) (.refl s)))

theorem sparesParts_takeClaim (s : State) (c : Claim) : SparesParts time capture contents s (s.takeClaim c) := by
  cases c with
  | delivered p tag =>
    show SparesParts _ _ _ s (s.takeDelivered tag)
    unfold State.takeDelivered
    split
    · exact .refl s
    · exact .ite (.ofSame rfl rfl rfl) (.refl s)
  | undeliverable p tag abort =>
    show SparesParts _ _ _ s (s.takeUndeliverable tag abort)
    unfold State.takeUndeliverable
    split
    · exact .refl s
    · exact .ite (.ite (sparesParts_freed_answered s _ _ _)
        ((sparesParts_freed_answered s _ _ _).trans (sparesParts_raise _ _))) (.refl s)
  | targetPortDown p tag =>
    show SparesParts _ _ _ s (s.takeTargetPortDown p tag)
    unfold State.takeTargetPortDown
    split
    · exact .refl s
    · exact sparesParts_portDownRecord p s _
  | portDown p => exact .foldl (sparesParts_portDownRecord p) _ s

theorem sparesParts_takeOldest (s : State) (sort : Claim → Bool) : SparesParts time capture contents s (s.takeOldest sort) := by
  unfold State.takeOldest
  split
  · exact .refl s
  · exact (sparesParts_takeClaim _ _).after (.ofSame rfl rfl rfl)

theorem sparesParts_settleDemands (s : State) (p : Port) : SparesParts time capture contents s (s.settleDemands p) :=
  (SparesParts.foldl sparesParts_takeClaim _ _).after (.ofSame rfl rfl rfl)

theorem sparesParts_withdrawStep (s : State) (p : Port) (tag : Tag) :
    SparesParts time capture contents s (s.withdrawStep p tag) := by
  have taken (s : State) (q : DataQ) : SparesParts time capture contents s (s.withdrawFrom p tag q) :=
    (SparesParts.foldl sparesParts_entryLeft _ _).after (.modPort s p _)
  unfold State.withdrawStep
  exact .ite ((SparesParts.foldl taken _ _).after (.ofSame rfl rfl rfl)) (.refl s)

/-- R62: the time until the deadline passes (log 4). -/
theorem sparesParts_callExpiry (s : State) (i : CallIx) : SparesParts false capture contents s (s.callExpiry i) := by
  have counted (s : State) (f : GatewayCounters → GatewayCounters) : SparesParts false capture contents s (s.modCount f) :=
    .ofSame rfl rfl rfl
  have expired (s : State) : SparesParts false capture contents s (s.expire i) :=
    (((sparesParts_withdrawn_freed s i).trans (sparesParts_offerReply _ _ _)).trans (sparesParts_raise _ _)).trans (counted _ _)
  unfold State.callExpiry
  exact .ite ((expired _).after ⟨nofun, fun _ => rfl, fun _ _ => rfl⟩) (.refl s)

/-! ### Port states, the error score and recovery (R120 to R139) -/

theorem sparesParts_leaveService (s : State) (p : Port) (target : PortState) :
    SparesParts time capture contents s (s.leaveService p target) := by
  have flushed (s : State) (e : QueueEntry) : SparesParts time capture contents s (s.flushEntry p e) := by
    unfold State.flushEntry
    split
    · exact (sparesParts_entryLeft s e).trans (.ofSame rfl rfl rfl)
    · exact sparesParts_entryLeft s e
  have dropped (s : State) : SparesParts time capture contents s (s.dropMgmt p) :=
    (SparesParts.foldl (fun s (e : MgmtEntry) => sparesParts_release s e.buffer) _ _).after (.ofSame rfl rfl rfl)
  have claimed (s : State) : SparesParts time capture contents s (s.addClaim (.portDown p)) := .ofSame rfl rfl rfl
  exact (((((sparesParts_settleDemands s p).trans (.modPort _ p _)).trans (.ofFlags (onlyFlags_judgePort _ p _))).trans
    (.foldl flushed _ _)).trans (claimed _)).trans (dropped _)

theorem sparesParts_enterService (s : State) (p : Port) (target : PortState) :
    SparesParts time capture contents s (s.enterService p target) :=
  (((sparesParts_settleDemands s p).trans (.modPort _ p _)).trans (.ofFlags (onlyFlags_judgePort _ p _))).trans
    (sparesParts_judgeHold _ p)

theorem sparesParts_transition (s : State) (p : Port) (target : PortState) :
    SparesParts time capture contents s (s.transition p target) := by
  unfold State.transition
  exact .ite (.ite (.modPort s p _) (sparesParts_enterService s p target)) (sparesParts_leaveService s p target)

theorem sparesParts_raiseScore (s : State) (p : Port) (n : Nat) : SparesParts time capture contents s (s.raiseScore p n) := by
  unfold State.raiseScore
  exact .ite (.ite (sparesParts_leaveService s p _) ((sparesParts_judge _ _ _).after (.modPort s p _))) (.refl s)

theorem sparesParts_lowerScore (s : State) (p : Port) : SparesParts time capture contents s (s.lowerScore p) := by
  unfold State.lowerScore
  exact .ite ((sparesParts_judge _ _ _).after (.modPort s p _)) (.refl s)

theorem sparesParts_recoveryRun (s : State) (p : Port) : SparesParts time capture contents s (s.recoveryRun p) := by
  unfold State.recoveryRun
  refine .ite (SparesParts.after (.ite ?_ (.refl _)) (.modPort s p _)) (.refl s)
  split
  · exact (sparesParts_enterService _ p _).trans (sparesParts_raise _ _)
  · exact .refl _

theorem sparesParts_clearTally (s : State) (p : Port) : SparesParts time capture contents s (s.clearTally p) :=
  .ite (.modPort s p _) (.refl s)

/-! ### The line and admission -/

theorem sparesParts_lineIdleRun (s : State) (p : Port) : SparesParts time capture contents s (s.lineIdleRun p) :=
  (sparesParts_recoveryRun _ p).after ((sparesParts_judge _ _ _).after (SparesParts.after (.modPort _ p _) (.modPort s p _)))

theorem sparesParts_lineCharacter (s : State) (p : Port) (idle : Bool) :
    SparesParts time capture contents s (s.lineCharacter p idle) := by
  unfold State.lineCharacter
  exact .ite (.refl s) (.ite (sparesParts_lineIdleRun s p) (.modPort s p _))

theorem sparesParts_lineUnrecognised (s : State) (p : Port) : SparesParts time capture contents s (s.lineUnrecognised p) := by
  unfold State.lineUnrecognised
  exact .ite (.refl s) ((sparesParts_clearTally _ p).after (.modPort s p _))

theorem sparesParts_lineLoss (s : State) (p : Port) : SparesParts time capture contents s (s.lineLoss p) :=
  (sparesParts_clearTally _ p).after ((sparesParts_judge _ _ _).after (.modPort s p _))

theorem sparesParts_badFrame (s : State) (p : Port) : SparesParts time capture contents s (s.badFrame p) :=
  (sparesParts_raiseScore _ p _).after (SparesParts.after (.modPort _ p _) (.modPort s p _))

theorem sparesParts_breakReception (s : State) (p : Port) : SparesParts time capture contents s (s.breakReception p) := by
  unfold State.breakReception
  exact .ite ((sparesParts_badFrame _ p).after (.modPort s p _)) (.modPort s p _)

theorem sparesParts_receiveCharacter (s : State) (p : Port) (c : Character) :
    SparesParts time capture contents s (s.receiveCharacter p c) := by
  cases c with
  | start => exact (sparesParts_breakReception s p).trans (.ofSame rfl rfl rfl)
  | data b =>
    unfold State.receiveCharacter
    dsimp only
    split
    · exact .modPort s p _
    · exact .refl s
    · exact .refl s
  | endChar => exact .refl s
  | idleMark => exact sparesParts_breakReception s p
  | control => exact sparesParts_breakReception s p

/-- R97: an admitted frame fills its buffer. -/
theorem sparesParts_admitFrame (s : State) (p : Port) (b : BufIx) (image payload : List Byte) (m : Bool) :
    SparesParts time capture false s (s.admitFrame p b image payload m) := by
  have filled : SparesParts time capture false s (s.changeBuffer b (fun _ => ⟨1, .port p, image, payload, s.timeBase⟩)) :=
    (sparesParts_judge _ _ _).after (.modBuffer s b _ nofun)
  have queued (t : State) : SparesParts time capture false t (t.queueAdmitted p b m) := .ite (.ofSame rfl rfl rfl) (.modPort t p _)
  exact ((((filled.trans (.modPort _ p _)).trans (.modPort _ p _)).trans (sparesParts_lowerScore _ p)).trans (queued _)).trans
    (sparesParts_judgeHold _ p)

theorem sparesParts_admission (s : State) (p : Port) (image payload : List Byte) :
    SparesParts time capture false s (s.admission p image payload) := by
  have busy : SparesParts time capture false s (s.nakBusy p) := .ofSame rfl rfl rfl
  have full : SparesParts time capture false s (s.nakFull p) := .ofSame rfl rfl rfl
  unfold State.admission
  refine .ite busy (.ite busy (.ite busy (.ite (full.trans (sparesParts_raise _ _)) (.ite full ?_))))
  split
  · exact .refl s
  · exact sparesParts_admitFrame s p _ _ _ _

/-- The line monitor's part in an arrival that ends the FRAME in reception. -/
theorem sparesParts_lineCharacter_ended (s : State) (p : Port) :
    SparesParts time capture contents s ((s.lineCharacter p false).setReception p .none) :=
  (sparesParts_lineCharacter s p false).trans (.modPort _ p _)

theorem sparesParts_arriveFrame (s : State) (p : Port) (chars : List Byte) :
    SparesParts time capture false s (s.arriveFrame p chars) := by
  have ended : SparesParts time capture false s ((s.lineCharacter p false).setReception p .none) :=
    sparesParts_lineCharacter_ended s p
  unfold State.arriveFrame
  refine .ite (ended.trans ?_) ended
  unfold State.frameEnd
  exact .ite (sparesParts_admission _ p _ _) (sparesParts_badFrame _ p)

/-- Of the characters only the end character, which may end a good FRAME, can bring a frame into a buffer. -/
theorem sparesParts_arriveCharacter {c : Character} (filling : c = .endChar → contents = false) (s : State) (p : Port) :
    SparesParts time capture contents s (s.arriveCharacter p c) := by
  unfold State.arriveCharacter
  refine .ite (.refl s) ?_
  split
  · next ends =>
    obtain rfl := filling ends.1
    exact sparesParts_arriveFrame s p []
  · exact (sparesParts_receiveCharacter s p c).trans (sparesParts_lineCharacter _ p _)

theorem sparesParts_arriveUnrecognised (s : State) (p : Port) : SparesParts time capture contents s (s.arriveUnrecognised p) := by
  unfold State.arriveUnrecognised
  exact .ite (.refl s) ((sparesParts_breakReception s p).trans (sparesParts_lineUnrecognised _ p))

theorem sparesParts_elapse (s : State) (d : Nat) : SparesParts false capture contents s (s.elapse d) :=
  ⟨nofun, fun _ => rfl, fun _ _ => rfl⟩

/-- R116: the time the watch has left passes (log 4). -/
theorem sparesParts_arriveLoss (s : State) (p : Port) : SparesParts false capture contents s (s.arriveLoss p) := by
  unfold State.arriveLoss
  refine .ite (.refl s) ?_
  split
  · exact .refl s
  · exact ((sparesParts_elapse s _).trans (sparesParts_breakReception _ p)).trans (sparesParts_lineLoss _ p)

theorem sparesParts_arriveIdleRun (s : State) (p : Port) : SparesParts time capture contents s (s.arriveIdleRun p) := by
  unfold State.arriveIdleRun
  exact .ite (.refl s) ((sparesParts_breakReception s p).trans (sparesParts_lineIdleRun _ p))

theorem sparesParts_arriveBroken {i : Interruption} (lost : i = .lossOfSignal → time = false)
    (filling : i = .character .endChar → contents = false) (s : State) (p : Port) :
    SparesParts time capture contents s (s.arriveBroken p i) := by
  have ended := sparesParts_lineCharacter_ended (time := time) (capture := capture) (contents := contents) s p
  have broken (bad : Bool) : SparesParts time capture contents s
      (if bad then ((s.lineCharacter p false).setReception p .none).badFrame p
        else (s.lineCharacter p false).setReception p .none) := .ite (ended.trans (sparesParts_badFrame _ p)) ended
  cases i with
  | character c => exact (sparesParts_arriveCharacter (fun ends => filling (congrArg _ ends)) _ p).after (broken _)
  | unrecognised => exact (sparesParts_arriveUnrecognised _ p).after (broken _)
  | lossOfSignal =>
    obtain rfl := lost rfl
    exact (sparesParts_arriveLoss _ p).after (broken _)

/-- R112: what breaks a FRAME is no end character, and so brings no frame into a buffer. -/
theorem sparesParts_brokenFrame {i : Interruption} {breaks : Bool} (lost : i = .lossOfSignal → time = false)
    (ends : i = .character .endChar → breaks = false) (s : State) (p : Port) :
    SparesParts time capture contents s (if breaks then s.arriveBroken p i else s) := by
  cases breaks with
  | false => exact .refl s
  | true => exact sparesParts_arriveBroken lost (fun same => nomatch ends same) s p

/-! ### The transmitter and the scheduler (R75 to R83, R86, R104, R108, R119) -/

theorem sparesParts_attemptStart (s : State) (p : Port) : SparesParts time capture contents s (s.attemptStart p) := by
  unfold State.attemptStart
  split
  · split
    · exact .refl s
    · unfold State.startAttempt
      split
      · exact .refl s
      · exact SparesParts.after (.modPort _ p _) (.modPort s p _)
  · exact .refl s

theorem sparesParts_frameSent (s : State) (p : Port) : SparesParts time capture contents s (s.frameSent p) := by
  unfold State.frameSent
  split
  · exact .refl s
  · split
    · exact .refl s
    · split <;> exact .ofSame rfl rfl rfl

theorem sparesParts_symbolAfter (s : State) (p : Port) : SparesParts time capture contents s (s.symbolAfter p) := by
  have chosen : SparesParts time capture contents s (s.nextSymbol p) := by
    unfold State.nextSymbol
    split
    · exact .ofSame rfl rfl rfl
    · split
      · exact .modPort s p _
      · exact .ite (.ofSame rfl rfl rfl) (.modPort s p _)
  unfold State.symbolAfter
  split
  · exact .modPort s p _
  · exact .modPort s p _
  · exact .modPort s p _
  · exact chosen
  · exact chosen

theorem sparesParts_symbolEnd (s : State) (p : Port) : SparesParts time capture contents s (s.symbolEnd p) := by
  unfold State.symbolEnd
  exact .ite (.ite (.refl s) ((sparesParts_frameSent s p).trans (sparesParts_symbolAfter _ p))) (sparesParts_symbolAfter s p)

theorem sparesParts_claimFor (s : State) (e : QueueEntry) (c : Tag → Claim) :
    SparesParts time capture contents s (s.claimFor e c) := by
  unfold State.claimFor
  split <;> exact .ofSame rfl rfl rfl

/-- R80, R82: the head of a queue leaves it. -/
theorem sparesParts_headLeft (s : State) (p : Port) (k : QueueId) (e : QueueEntry) (es : List QueueEntry) :
    SparesParts time capture contents s ((s.setQueue p k es).entryLeft e) :=
  (sparesParts_entryLeft _ e).after (.modPort s p _)

theorem sparesParts_completeAck (s : State) (p : Port) : SparesParts time capture contents s (s.completeAck p) := by
  have timed (t : State) (k : QueueId) : SparesParts time capture contents t (t.startInterval p k) := by
    cases k <;> exact .ofSame rfl rfl rfl
  unfold State.completeAck
  split
  · exact .refl s
  · split
    · exact .modPort s p _
    · next a _ _ e es _ =>
      have left : SparesParts time capture contents s (((s.endAttempt p).setQueue p a.queue es).entryLeft e) :=
        (sparesParts_headLeft _ p a.queue e es).after (.modPort s p _)
      exact (((left.trans (.modPort _ p _)).trans (sparesParts_claimFor _ _ _)).trans (timed _ _)).trans
        (sparesParts_lowerScore _ p)

theorem sparesParts_completeFailure (s : State) (p : Port) : SparesParts time capture contents s (s.completeFailure p) := by
  unfold State.completeFailure
  split
  · exact .refl s
  · split
    · exact .modPort s p _
    · have failed : SparesParts time capture contents s
          ((s.endAttempt p).modPortCount p (fun c => { c with txFail := c.txFail + 1 })) :=
        SparesParts.after (.modPort _ p _) (.modPort s p _)
      refine failed.trans (.ite ?_ (.modPort _ p _))
      exact ((sparesParts_headLeft _ p _ _ _).trans (.modPort _ p _)).trans (sparesParts_claimFor _ _ _)

theorem sparesParts_failAttempt (s : State) (p : Port) (raises : Bool) :
    SparesParts time capture contents s (s.failAttempt p raises) := by
  unfold State.failAttempt
  exact .ite ((sparesParts_completeFailure s p).trans (sparesParts_raiseScore _ p _)) (sparesParts_completeFailure s p)

/-- An answer and a HOLD symbol arrive as control characters, which end no FRAME. -/
theorem sparesParts_arriveControl (s : State) (p : Port) : SparesParts time capture contents s (s.arriveCharacter p .control) :=
  sparesParts_arriveCharacter (c := .control) (fun ends => nomatch ends) s p

theorem sparesParts_ackReceived (s : State) (p : Port) : SparesParts time capture contents s (s.ackReceived p) :=
  (sparesParts_arriveControl s p).trans (.ite (sparesParts_completeAck _ p) (.refl _))

theorem sparesParts_nakReceived (s : State) (p : Port) (r : NakReason) : SparesParts time capture contents s (s.nakReceived p r) :=
  (sparesParts_arriveControl s p).trans (.ite (sparesParts_failAttempt _ p _) (.refl _))

theorem sparesParts_strayAnswer (s : State) (p : Port) : SparesParts time capture contents s (s.strayAnswer p) :=
  .ite (.refl s) (sparesParts_arriveControl s p)

theorem sparesParts_holdReceived (s : State) (p : Port) (d : Byte) : SparesParts time capture contents s (s.holdReceived p d) :=
  (sparesParts_arriveControl s p).trans (.ite (.modPort _ p _) (.refl _))

theorem sparesParts_ackWindowExpiry (s : State) (p : Port) : SparesParts false capture contents s (s.ackWindowExpiry p) := by
  unfold State.ackWindowExpiry
  split
  · exact .refl s
  · split
    · exact (sparesParts_elapse s _).trans (sparesParts_failAttempt _ p _)
    · exact .refl s
    · exact .refl s

theorem sparesParts_partnerHoldExpiry (s : State) (p : Port) : SparesParts false capture contents s (s.partnerHoldExpiry p) := by
  unfold State.partnerHoldExpiry
  split
  · exact .refl s
  · exact (sparesParts_elapse s _).trans (.modPort _ p _)

theorem sparesParts_intervalExpiry (s : State) (p : Port) (q : DataQ) :
    SparesParts false capture contents s (s.intervalExpiry p q) := by
  unfold State.intervalExpiry
  split
  · exact .refl s
  · exact (sparesParts_elapse s _).trans (.modPort _ p _)

theorem sparesParts_holdResendExpiry (s : State) (p : Port) : SparesParts false capture contents s (s.holdResendExpiry p) := by
  unfold State.holdResendExpiry
  split
  · exact .refl s
  · exact ((sparesParts_elapse s _).trans (.modPort _ p _)).trans (.modPort _ p _)

/-! ### Decisions (R7, R18, R40, R43, R54) -/

theorem sparesParts_modCount (s : State) (f : GatewayCounters → GatewayCounters) :
    SparesParts time capture contents s (s.modCount f) := .ofSame rfl rfl rfl

theorem sparesParts_forwarded (s : State) : SparesParts time capture contents s s.forwarded := sparesParts_modCount s _

theorem sparesParts_discarded (s : State) : SparesParts time capture contents s s.discarded := sparesParts_modCount s _

theorem sparesParts_countMirror (s : State) : SparesParts time capture contents s s.countMirror := sparesParts_modCount s _

/-- R45: a refusal is captured. -/
theorem sparesParts_refuse (s : State) (p : Port) (h : Header) (st : Status) (d : Half) :
    SparesParts time false contents s (s.refuse p h st d) := by
  have captured : SparesParts time false contents s (s.setCapture ⟨p, h.src, h.dst, h.svc, h.kind, st, d⟩) :=
    ⟨fun _ => rfl, nofun, fun _ _ => rfl⟩
  have told : SparesParts time false contents s (s.refusalTold p h st d) :=
    SparesParts.after (.ofFlags (onlyFlags_refusalTold s p st d)) (captured.trans (sparesParts_modCount _ _))
  exact .ite (told.trans (sparesParts_offerReply _ p _)) told

theorem sparesParts_forwardRequest (s : State) (p : Port) (b : BufIx) (h : Header) (r : RuleIx) (f : Forwarding) :
    SparesParts time capture contents s (s.forwardRequest p b h r f).1 := by
  have opened (i : CallIx) (r : CallRecord) : SparesParts time capture contents s (s.openRecord i r) :=
    SparesParts.after (.ofFlags (onlyFlags_openRecord s i r)) (.ofSame rfl rfl rfl)
  unfold State.forwardRequest
  split
  · exact .refl s
  · dsimp only
    split
    · next delivered => exact ((opened _ _).trans (sparesParts_deliver delivered)).trans (sparesParts_forwarded _)
    · exact (opened _ _).trans (sparesParts_freed_answered _ _ _ _)

theorem sparesParts_forwardNotice (s : State) (b : BufIx) (h : Header) (r : RuleIx) (f : Forwarding) :
    SparesParts time capture contents s (s.forwardNotice b h r f).1 := by
  unfold State.forwardNotice
  split
  · next delivered => exact (sparesParts_deliver delivered).trans (sparesParts_forwarded _)
  · exact sparesParts_discarded s

theorem sparesParts_discardedWith (s : State) (e : EventFlag) : SparesParts time capture contents s (s.discardedWith e) :=
  (sparesParts_raise s _).trans (sparesParts_discarded _)

theorem sparesParts_matchReply (s : State) (p : Port) (b : BufIx) (h : Header) (r : RuleIx) (len : Nat) :
    SparesParts time capture contents s (s.matchReply p b h r len).1 := by
  have delivered (s : State) (c : CallRecord) : SparesParts time capture contents s (s.deliverReply b h r c len).1 := by
    unfold State.deliverReply
    split
    · next delivered => exact (sparesParts_deliver delivered).trans (sparesParts_forwarded _)
    · exact sparesParts_discardedWith s _
  unfold State.matchReply
  split
  · exact sparesParts_discardedWith s _
  · split
    · exact (sparesParts_withdrawn_freed s _).trans (delivered _ _)
    · exact sparesParts_discardedWith s _

theorem sparesParts_mirrorCopy (s : State) (p : Port) (b : BufIx) (r : RuleIx) (o : Byte) :
    SparesParts time capture contents s (s.mirrorCopy p b r o) := by
  rcases mirrorCopy_cases s p b r o with e | ⟨m, e⟩ | e <;> rw [e]
  · exact .refl s
  · have held : SparesParts time capture contents s
        ((s.setQueue m .m (s.queue m .m ++ [s.mirrorEntry p b r o])).holdOpt (some b)) :=
      (sparesParts_holdOpt _ (some b)).after (.modPort s m _)
    exact held.trans (sparesParts_countMirror _)
  · exact (sparesParts_raise s _).trans (sparesParts_modCount _ _)

theorem sparesParts_primary (s : State) (p : Port) (b : BufIx) (h : Header) (x : Settled) :
    SparesParts time false contents s (s.primary p b h x).1 := by
  cases x with
  | unscanned => exact sparesParts_discarded s
  | noRule => exact sparesParts_discardedWith s _
  | discard r => exact sparesParts_discarded s
  | shortReply r => exact sparesParts_discardedWith s _
  | refusal r st d g => exact sparesParts_refuse s p h st d
  | matching r len => exact sparesParts_matchReply s p b h r len
  | forward r f =>
    by_cases request : h.kind.isRequest = true
    · rw [State.primary, if_pos request]
      exact sparesParts_forwardRequest s p b h r f
    · rw [State.primary, if_neg request]
      exact sparesParts_forwardNotice s b h r f

theorem sparesParts_applySettled (s : State) (p : Port) (b : BufIx) (h : Header) (x : Settled) :
    SparesParts time false contents s (s.applySettled p b h x) := by
  cases rule : x.matchedRule with
  | none =>
    cases x with
    | unscanned => exact sparesParts_primary s p b h .unscanned
    | noRule => exact sparesParts_primary s p b h .noRule
    | _ => contradiction
  | some r =>
    rw [applySettled_matched rule]
    exact (sparesParts_primary s p b h x).trans (sparesParts_mirrorCopy _ p b r _)

theorem sparesParts_decisionStep (s : State) (p : Port) : SparesParts time false contents s (s.decisionStep p) := by
  unfold State.decisionStep
  split
  · exact .refl s
  · exact (sparesParts_release _ _).after ((sparesParts_applySettled _ p _ _ _).after (.modPort s p _))

/-! ### Notices (R100, R167) -/

/-- R100: a notice is built into a free buffer. -/
theorem sparesParts_noticeStep (s : State) (f : Flag) : SparesParts time capture false s (s.noticeStep f) := by
  have attempted (s : State) : SparesParts time capture false s s.noticeAttempt := by
    unfold State.noticeAttempt
    split
    · split
      · exact .refl s
      · next b _ =>
        split
        · exact .refl s
        · next u delivered =>
          have built : SparesParts time capture false s u := (sparesParts_deliver delivered).after (.modBuffer s b _ nofun)
          have disarmed : SparesParts time capture false u u.disarm := .ofSame rfl rfl rfl
          exact (built.trans disarmed).trans (sparesParts_judge _ _ _)
    · exact .refl s
  have dropped : SparesParts time capture false s (s.dropTrigger f) := .ofSame rfl rfl rfl
  unfold State.noticeStep
  exact .ite (.ite (dropped.trans (attempted _)) dropped) (.refl s)

/-! ### The management unit (R145 to R149) -/

theorem sparesParts_takeDemand (s : State) (d : Demand) : SparesParts time capture false s (s.takeDemand d) := by
  cases d with
  | delivered p | undeliverable p | targetPortDown p | portDown p => exact sparesParts_takeOldest s _
  | withdraw p tag => exact sparesParts_withdrawStep s p tag
  | notice f => exact sparesParts_noticeStep s f

/-- R148: a reply's payload is written into the request's own buffer. -/
theorem sparesParts_answer (gsn : Station) (o : Interleaving) (q : Request) (x : Executed) (r : Bool) :
    SparesParts time capture false x.state (State.answer gsn o q x r) := by
  have owed (t : State) : SparesParts time capture false t (t.sendOwed x.owed) := by
    cases x.owed with
    | none => exact .refl t
    | some r => exact sparesParts_offerReply t _ _
  have interleaved : SparesParts time capture false x.state (x.state.interleave o x.owed) := by
    unfold State.interleave
    exact .ite (.foldl sparesParts_takeDemand _ _) ((owed _).trans (.foldl sparesParts_takeDemand _ _))
  have written (t : State) : SparesParts time capture false t (t.writeReply q.buffer x.payload) :=
    .ite (.refl t) (.modBuffer t _ _ nofun)
  have offered (t : State) (e : QueueEntry) : SparesParts time capture false t (t.offerManagement q e) := by
    unfold State.offerManagement
    split
    · next delivered => exact sparesParts_deliver delivered
    · exact .ite ((sparesParts_raise t _).trans (sparesParts_reportRestart _)) (sparesParts_raise t _)
  have replied := (interleaved.trans (written _)).trans (offered _ (managementEntry gsn q x.status x.payload r))
  exact (sparesParts_release _ q.buffer).after (.ite (replied.trans (owed _)) replied)

theorem sparesParts_opSetPortState (s : State) (q : Request) :
    SparesParts time capture contents s (opSetPortState s q).state := by
  unfold opSetPortState
  split
  · exact .refl s
  · split
    · exact .refl s
    · split
      · exact .refl s
      · split
        · exact .refl s
        · split
          · exact sparesParts_transition s _ _
          · exact .refl s

theorem sparesParts_opCancelCall (s : State) (q : Request) : SparesParts time capture contents s (opCancelCall s q).state := by
  unfold opCancelCall
  split
  · exact .refl s
  · split
    · exact .refl s
    · split
      · exact sparesParts_withdrawn_freed s _
      · exact .refl s

theorem sparesParts_opAbortQueue (s : State) (q : Request) : SparesParts time capture contents s (opAbortQueue s q).state := by
  unfold opAbortQueue
  split
  · exact .refl s
  · split
    · exact .refl s
    · exact sparesParts_abortQueue s _ _

theorem sparesParts_opReadCounters (s : State) (q : Request) :
    SparesParts time capture contents s (opReadCounters s q).state := by
  unfold opReadCounters
  split
  · exact .refl s
  · split
    · exact .refl s
    · split
      · exact .ite (.modPort s _ _) (.refl s)
      · exact .ite (sparesParts_modCount s _) (.refl s)

theorem sparesParts_opWriteGateway (s : State) (q : Request) : SparesParts time capture false s (opWriteGateway s q).state := by
  unfold opWriteGateway
  split
  · exact .refl s
  · split
    · exact .refl s
    · next r _ =>
      split
      · exact .refl s
      · have written : SparesParts time capture false s (s.setSettings r) := .ofSame rfl rfl rfl
        have marks : SparesParts time capture false s (judgeMarks s r) :=
          (written.trans (sparesParts_judge _ _ _)).trans (sparesParts_judge _ _ _)
        have triggers : SparesParts time capture false s (takeNewTriggers s (judgeMarks s r)) :=
          marks.trans (.foldl sparesParts_noticeStep _ _)
        show SparesParts _ _ _ s (leaveMonitor _ _ _)
        unfold leaveMonitor
        split
        · exact triggers
        · exact .ite triggers (triggers.trans (sparesParts_abortQueue _ _ _))

/-- From s to t the tables were written, and nothing else. -/
def OnlyTables (s t : State) : Prop := t = { s with tables := t.tables }

theorem onlyTables_refl (s : State) : OnlyTables s s := rfl

theorem onlyTables_opWriteRule (s : State) (q : Request) : OnlyTables s (opWriteRule s q).state := by
  unfold opWriteRule
  split
  · exact onlyTables_refl s
  · rfl

theorem onlyTables_opWriteService (s : State) (q : Request) : OnlyTables s (opWriteService s q).state := by
  unfold opWriteService
  split
  · exact onlyTables_refl s
  · split
    · exact onlyTables_refl s
    · split
      · exact onlyTables_refl s
      · split
        · exact onlyTables_refl s
        · rfl

theorem onlyTables_opWritePort (s : State) (q : Request) : OnlyTables s (opWritePort s q).state := by
  unfold opWritePort
  split
  · exact onlyTables_refl s
  · split
    · exact onlyTables_refl s
    · split
      · exact onlyTables_refl s
      · split
        · exact onlyTables_refl s
        · split
          · exact onlyTables_refl s
          · rfl

theorem onlyTables_opWriteQueue (s : State) (q : Request) : OnlyTables s (opWriteQueue s q).state := by
  unfold opWriteQueue
  split
  · split
    · exact onlyTables_refl s
    · rfl
  · exact onlyTables_refl s

theorem onlyTables_opClearTable (s : State) (q : Request) : OnlyTables s (opClearTable s q).state := by
  unfold opClearTable
  dsimp only
  split
  · split
    · exact onlyTables_refl s
    · rfl
  · split
    · exact onlyTables_refl s
    · rfl
  all_goals exact onlyTables_refl s

theorem OnlyTables.sparesParts {s t : State} (h : OnlyTables s t) : SparesParts time capture contents s t := by
  unfold OnlyTables at h
  exact .ofSame (h ▸ rfl) (h ▸ rfl) (h ▸ rfl)

/-- No operation moves the time or refuses a frame; what a buffer holds changes with a notice alone. -/
theorem sparesParts_execute (op : Operation) (s : State) (q : Request) :
    SparesParts time capture false s (execute op s q).state := by
  cases op with
  | identify | readState => exact .refl s
  | restart => exact .ofSame rfl rfl rfl
  | readTable => exact (state_opReadTable s q).symm ▸ .refl s
  | readCall => exact (state_opReadCall s q).symm ▸ .refl s
  | probe => exact (state_opProbe s q).symm ▸ .refl s
  | writeRule => exact (onlyTables_opWriteRule s q).sparesParts
  | writeService => exact (onlyTables_opWriteService s q).sparesParts
  | writePort => exact (onlyTables_opWritePort s q).sparesParts
  | writeQueue => exact (onlyTables_opWriteQueue s q).sparesParts
  | writeGateway => exact sparesParts_opWriteGateway s q
  | clearTable => exact (onlyTables_opClearTable s q).sparesParts
  | setPortState => exact sparesParts_opSetPortState s q
  | abortQueue => exact sparesParts_opAbortQueue s q
  | cancelCall => exact sparesParts_opCancelCall s q
  | readEvents => exact (SparesParts.foldl sparesParts_noticeStep s.wires.triggers s).trans (.ofSame rfl rfl rfl)
  | readCounters => exact sparesParts_opReadCounters s q

theorem sparesParts_manage (s : State) (o : Interleaving) : SparesParts time capture false s (s.manage o) := by
  have dropped : SparesParts time capture false s s.dropHead := .ofSame rfl rfl rfl
  unfold State.manage
  split
  · exact .refl s
  · exact (dropped.trans (sparesParts_modCount _ _)).trans (sparesParts_release _ _)
  · exact (dropped.trans (sparesParts_raise _ _)).trans (sparesParts_release _ _)
  · exact (dropped.trans (sparesParts_raise _ _)).trans (sparesParts_answer _ o _ (refusedWith _ _) _)
  · exact dropped.trans (sparesParts_answer _ o _ (refusedWith _ _) _)
  · exact (dropped.trans (sparesParts_execute _ _ _)).trans (sparesParts_answer _ o _ _ _)

theorem sparesParts_takeOf (op : Operation) (o : Interleaving) (s : State) :
    SparesParts time capture false s (State.takeOf op o s) := by
  unfold State.takeOf
  split
  · exact .ite (sparesParts_manage s o) (.refl s)
  all_goals exact .refl s

end

/-- R151: an operation's own row leaves the tables where the operation is no write. -/
theorem tables_takeOf {op : Operation} (reads : op.writesTables = false) (o : Interleaving) (s : State) :
    (State.takeOf op o s).tables = s.tables := by
  unfold State.takeOf
  split
  · next judged =>
    split
    · next same =>
      rcases tables_manage s o with kept | ⟨e, op', judged', kept⟩
      · exact kept
      · obtain ⟨-, rfl⟩ := HeadJudgement.run.inj (judged.symm.trans judged')
        rw [kept, (keeps_execute (same.symm ▸ reads) s.dropHead _).tables]
        rfl
    · rfl
  all_goals rfl

/-! ### Every command -/

/-- What the command c, which takes s to t, must leave as it was because it owns no such part. -/
structure OwnersKept (c : Instr) (s t : State) : Prop
    extends SparesParts (!movesTime c) (!writesCapture c) (!fillsBuffers c) s t where
  tables : writesTables c = false → t.tables = s.tables
  calls : leavesCalls c = true → t.calls = s.calls

/-- R173: a command that is taken only while the reset pin is released. -/
theorem ownersKept_running (c : Instr) {f : State → State}
    (parts : ∀ s, SparesParts (!movesTime c) (!writesCapture c) (!fillsBuffers c) s (f s))
    (tables : writesTables c = false → ∀ s, (f s).tables = s.tables)
    (calls : leavesCalls c = true → ∀ s, (f s).calls = s.calls)
    (s : State) : ∃ t, running f s = .next t ∧ OwnersKept c s t := by
  unfold running
  split
  · exact ⟨s, rfl, .refl s, fun _ => rfl, fun _ => rfl⟩
  · exact ⟨f s, rfl, parts s, fun asked => tables asked s, fun asked => calls asked s⟩

/-- A command outside the management unit, which keeps the tables and may reach the call table. -/
theorem ownersKept_ofKeeps (c : Instr) {f : State → State}
    (parts : ∀ s, SparesParts (!movesTime c) (!writesCapture c) (!fillsBuffers c) s (f s)) (tables : ∀ s, Keeps s (f s))
    (reaches : leavesCalls c = false) (s : State) : ∃ t, running f s = .next t ∧ OwnersKept c s t :=
  ownersKept_running c parts (fun _ s => (tables s).tables) (fun leaves => nomatch reaches.symm.trans leaves) s

/-- An operation's own row. -/
theorem ownersKept_takeOf {op : Operation} {c : Instr} (o : Interleaving) (fills : fillsBuffers c = true)
    (writes : writesTables c = op.writesTables) (reaches : leavesCalls c = false) (s : State) :
    ∃ t, running (State.takeOf op o) s = .next t ∧ OwnersKept c s t := by
  refine ownersKept_running c (fun s => ?_) (fun reads s => tables_takeOf (writes ▸ reads) o s)
    (fun leaves => nomatch reaches.symm.trans leaves) s
  rw [fills]
  exact sparesParts_takeOf op o s

/-- Every command leaves to their owners what it does not own. -/
theorem ownersKept_exec (c : Instr) (s : State) : ∃ t, exec c s = .next t ∧ OwnersKept c s t := by
  cases c with
  | resetAssert => exact ⟨s.assertReset, rfl, .ofSame rfl rfl rfl, fun _ => rfl, fun _ => rfl⟩
  | resetRelease b n => exact ⟨s.releaseReset b n, rfl, ⟨nofun, nofun, nofun⟩, nofun, nofun⟩
  | restartAct => exact ownersKept_running .restartAct (fun _ => ⟨nofun, nofun, nofun⟩) nofun nofun s
  | frameReceived p chars =>
    exact ownersKept_ofKeeps (.frameReceived p chars) (sparesParts_arriveFrame · p chars) (keeps_arriveFrame · p chars) rfl s
  | brokenFrame p i =>
    have lost : i = .lossOfSignal → (!movesTime (.brokenFrame p i)) = false := by
      rintro rfl
      rfl
    exact ownersKept_ofKeeps (.brokenFrame p i) (sparesParts_brokenFrame lost (by rintro rfl; rfl) · p)
      (fun s => Keeps.ite (keeps_arriveBroken s p i) (Keeps.refl s)) rfl s
  | ackReceived p => exact ownersKept_ofKeeps (.ackReceived p) (sparesParts_ackReceived · p) (keeps_ackReceived · p) rfl s
  | nakReceived p r => exact ownersKept_ofKeeps (.nakReceived p r) (sparesParts_nakReceived · p r) (keeps_nakReceived · p r) rfl s
  | ackWindowExpiry p =>
    exact ownersKept_ofKeeps (.ackWindowExpiry p) (sparesParts_ackWindowExpiry · p) (keeps_ackWindowExpiry · p) rfl s
  | strayAnswer p a => exact ownersKept_ofKeeps (.strayAnswer p a) (sparesParts_strayAnswer · p) (keeps_strayAnswer · p) rfl s
  | holdReceived p d =>
    exact ownersKept_ofKeeps (.holdReceived p d) (sparesParts_holdReceived · p d) (keeps_holdReceived · p d) rfl s
  | idleRun p => exact ownersKept_ofKeeps (.idleRun p) (sparesParts_arriveIdleRun · p) (keeps_arriveIdleRun · p) rfl s
  | lossOfSignal p => exact ownersKept_ofKeeps (.lossOfSignal p) (sparesParts_arriveLoss · p) (keeps_arriveLoss · p) rfl s
  | unrecognisedCharacter p =>
    exact ownersKept_ofKeeps (.unrecognisedCharacter p) (sparesParts_arriveUnrecognised · p) (keeps_arriveUnrecognised · p) rfl s
  | characterRecognised p c =>
    have filling : c = .endChar → (!fillsBuffers (.characterRecognised p c)) = false := by
      rintro rfl
      rfl
    exact ownersKept_ofKeeps (.characterRecognised p c) (sparesParts_arriveCharacter filling · p) (keeps_arriveCharacter · p c)
      rfl s
  | decision p => exact ownersKept_ofKeeps (.decision p) (sparesParts_decisionStep · p) (keeps_decisionStep · p) rfl s
  | deliveredClaim p => exact ownersKept_ofKeeps (.deliveredClaim p) (sparesParts_takeOldest · _) (keeps_takeOldest · _) rfl s
  | undeliverableClaim p =>
    exact ownersKept_ofKeeps (.undeliverableClaim p) (sparesParts_takeOldest · _) (keeps_takeOldest · _) rfl s
  | targetPortDownClaim p =>
    exact ownersKept_ofKeeps (.targetPortDownClaim p) (sparesParts_takeOldest · _) (keeps_takeOldest · _) rfl s
  | portDownClaim p => exact ownersKept_ofKeeps (.portDownClaim p) (sparesParts_takeOldest · _) (keeps_takeOldest · _) rfl s
  | callExpiry i => exact ownersKept_ofKeeps (.callExpiry i) (sparesParts_callExpiry · i) (keeps_callExpiry · i) rfl s
  | partnerHoldExpiry p =>
    exact ownersKept_running (.partnerHoldExpiry p) (sparesParts_partnerHoldExpiry · p)
      (fun _ s => (keeps_partnerHoldExpiry s p).tables)
      (fun _ => (calls_partnerHoldExpiry · p)) s
  | transmitterSymbolEnd p =>
    exact ownersKept_running (.transmitterSymbolEnd p) (sparesParts_symbolEnd · p) (fun _ s => (keeps_symbolEnd s p).tables)
      (fun _ => (calls_symbolEnd · p)) s
  | frameSent p =>
    exact ownersKept_running (.frameSent p) (sparesParts_frameSent · p) (fun _ s => (keeps_frameSent s p).tables)
      (fun _ => (calls_frameSent · p)) s
  | attemptStart p =>
    exact ownersKept_running (.attemptStart p) (sparesParts_attemptStart · p) (fun _ s => (keeps_attemptStart s p).tables)
      (fun _ => (calls_attemptStart · p)) s
  | intervalTimerExpiry p q =>
    exact ownersKept_running (.intervalTimerExpiry p q) (sparesParts_intervalExpiry · p q)
      (fun _ s => (keeps_intervalExpiry s p q).tables)
      (fun _ => (calls_intervalExpiry · p q)) s
  | holdResendExpiry p =>
    exact ownersKept_running (.holdResendExpiry p) (sparesParts_holdResendExpiry · p)
      (fun _ s => (keeps_holdResendExpiry s p).tables)
      (fun _ => (calls_holdResendExpiry · p)) s
  | withdraw p tag =>
    exact ownersKept_running (.withdraw p tag) (sparesParts_withdrawStep · p tag) (fun _ s => (keeps_withdrawStep s p tag).tables)
      (fun _ => (calls_withdrawStep · p tag)) s
  | noticeAttempt f =>
    exact ownersKept_running (.noticeAttempt f) (sparesParts_noticeStep · f) (fun _ s => (keeps_noticeStep s f).tables)
      (fun _ => (calls_noticeStep · f)) s
  | managementTake o => exact ownersKept_running (.managementTake o) (sparesParts_manage · o) nofun nofun s
  | identify o => exact ownersKept_takeOf (op := .identify) o rfl rfl rfl s
  | readTable o => exact ownersKept_takeOf (op := .readTable) o rfl rfl rfl s
  | writeTableRule o => exact ownersKept_takeOf (op := .writeRule) o rfl rfl rfl s
  | writeTableService o => exact ownersKept_takeOf (op := .writeService) o rfl rfl rfl s
  | writeTablePort o => exact ownersKept_takeOf (op := .writePort) o rfl rfl rfl s
  | writeTableQueue o => exact ownersKept_takeOf (op := .writeQueue) o rfl rfl rfl s
  | writeTableGateway o => exact ownersKept_takeOf (op := .writeGateway) o rfl rfl rfl s
  | clearTable o => exact ownersKept_takeOf (op := .clearTable) o rfl rfl rfl s
  | readState o => exact ownersKept_takeOf (op := .readState) o rfl rfl rfl s
  | setPortState o => exact ownersKept_takeOf (op := .setPortState) o rfl rfl rfl s
  | abortQueue o => exact ownersKept_takeOf (op := .abortQueue) o rfl rfl rfl s
  | cancelCall o => exact ownersKept_takeOf (op := .cancelCall) o rfl rfl rfl s
  | readCall o => exact ownersKept_takeOf (op := .readCall) o rfl rfl rfl s
  | readEvents o => exact ownersKept_takeOf (op := .readEvents) o rfl rfl rfl s
  | readCounters o => exact ownersKept_takeOf (op := .readCounters) o rfl rfl rfl s
  | probe o => exact ownersKept_takeOf (op := .probe) o rfl rfl rfl s
  | restart o => exact ownersKept_takeOf (op := .restart) o rfl rfl rfl s

end Sys2Proof.Machine

open Sys2Proof Sys2Proof.Machine

/-- Settles O3: every part is left to its owners, command by command. -/
theorem partsWrittenOnlyByTheirOwners : Obligations.PartsWrittenOnlyByTheirOwners := by
  refine ⟨fun c s reads => ?_, fun c s reads => ?_, fun c s leaves => ?_, fun c s still => ?_, fun c s spares => ?_⟩
  all_goals obtain ⟨t, ran, kept⟩ := ownersKept_exec c s
  · exact ⟨t, ran, kept.tables reads⟩
  · exact ⟨t, ran, kept.lastRefusal (by rw [reads]; rfl)⟩
  · exact ⟨t, ran, kept.calls leaves⟩
  · exact ⟨t, ran, kept.timeBase (by rw [still]; rfl)⟩
  · exact ⟨t, ran, kept.buffers (by rw [spares]; rfl)⟩
end

section
/-! The take of the management head (R145 to R149): how the head is judged, the reply of a request and how it is delivered or lost,
and the statements about the head, its operation and the operations' own rows. -/

namespace Sys2Proof.Machine
open Sys2Proof

/-! ### Judging the head (R145 to R147) -/

theorem judgeHead_of_waiting {s : State} (h : s.mgmt.restart ≠ .clear ∨ s.mgmt.queue = []) : s.judgeHead = .waits := by
  unfold State.judgeHead
  split
  · next clear =>
    rw [h.resolve_left (fun pending => pending clear)]
  · rfl

theorem judgeHead_of_cons {s : State} {e : MgmtEntry} {es : List MgmtEntry} (clear : s.mgmt.restart = .clear)
    (front : s.mgmt.queue = e :: es) : s.judgeHead = s.judgeEntry e := by
  rw [State.judgeHead, if_pos clear, front]

/-- R146: which requests the ring checks let through. -/
theorem ringPasses_iff (s : State) (q : Request) : s.ringPasses q = true ↔
    (q.header.kind = .query ∧ q.ring ≤ s.settings.mgmtReadRing)
      ∨ (q.header.kind = .command ∧ q.ring ≤ s.settings.mgmtWriteRing) := by
  unfold State.ringPasses
  cases q.header.kind <;> simp

section
variable {s : State} {e : MgmtEntry}

theorem judgeEntry_discardKind (answer : (s.request e).header.kind.isRequest = false) : s.judgeEntry e = .discardKind e :=
  if_pos answer

variable (request : (s.request e).header.kind.isRequest = true)
include request

theorem judgeEntry_discardAdmit (barred : (s.portRec e.port).mgmtAdmit = false) : s.judgeEntry e = .discardAdmit e := by
  rw [State.judgeEntry, if_neg (by simp [request]), if_pos barred]

variable (admitted : (s.portRec e.port).mgmtAdmit = true)
include admitted

theorem judgeEntry_waits (full : 8 ≤ (s.port e.port).gq.length) : s.judgeEntry e = .waits := by
  rw [State.judgeEntry, if_neg (by simp [request]), if_neg (by simp [admitted])]
  exact if_pos full

variable (room : (s.port e.port).gq.length < 8)
include room

theorem judgeEntry_ringRefused (barred : s.ringPasses (s.request e) = false) : s.judgeEntry e = .ringRefused e := by
  have room : ¬ Config.gDepth ≤ (s.port e.port).gq.length := Nat.not_le.mpr room
  rw [State.judgeEntry, if_neg (by simp [request]), if_neg (by simp [admitted]), if_neg room, if_pos barred]

variable (passes : s.ringPasses (s.request e) = true)
include passes

/-- R147: behind the ring checks the operation asked for decides. -/
theorem judgeEntry_passed :
    (∀ st, operationOf (s.request e).header (s.request e).payload = .inl st → s.judgeEntry e = .refused e st)
    ∧ ∀ op, operationOf (s.request e).header (s.request e).payload = .inr op → s.judgeEntry e = .run e op := by
  have room : ¬ Config.gDepth ≤ (s.port e.port).gq.length := Nat.not_le.mpr room
  rw [State.judgeEntry, if_neg (by simp [request]), if_neg (by simp [admitted]), if_neg room, if_neg (by simp [passes])]
  exact ⟨fun st asked => by rw [asked], fun op asked => by rw [asked]⟩

end

/-! ### Takes -/

theorem manage_waits {s : State} (judged : s.judgeHead = .waits) (o : Interleaving) : s.manage o = s := by
  rw [State.manage, judged]

theorem manage_discardKind {s : State} {e : MgmtEntry} (judged : s.judgeHead = .discardKind e) (o : Interleaving) :
    s.manage o = s.dropHead.discarded.release e.buffer := by
  rw [State.manage, judged]

theorem manage_discardAdmit {s : State} {e : MgmtEntry} (judged : s.judgeHead = .discardAdmit e) (o : Interleaving) :
    s.manage o = (s.dropHead.raise (.event .mgmtRefused)).release e.buffer := by
  rw [State.manage, judged]

theorem manage_ringRefused {s : State} {e : MgmtEntry} (judged : s.judgeHead = .ringRefused e) (o : Interleaving) :
    s.manage o
      = State.answer s.settings.gsn o (s.request e) (refusedWith (s.dropHead.raise (.event .mgmtRefused)) .ring) false := by
  rw [State.manage, judged]

theorem manage_refused {s : State} {e : MgmtEntry} {st : Status} (judged : s.judgeHead = .refused e st) (o : Interleaving) :
    s.manage o = State.answer s.settings.gsn o (s.request e) (refusedWith s.dropHead st) false := by
  rw [State.manage, judged]

theorem manage_run {s : State} {e : MgmtEntry} {op : Operation} (judged : s.judgeHead = .run e op) (o : Interleaving) :
    s.manage o
      = State.answer s.settings.gsn o (s.request e) (execute op s.dropHead (s.request e)) (op == .restart) := by
  rw [State.manage, judged]

theorem exec_managementTake {s : State} (run : s.resetAsserted = false) (o : Interleaving) :
    exec (.managementTake o) s = .next (s.manage o) := running_of_notReset run (State.manage · o)

theorem exec_managementTake_waits {s : State} (judged : s.judgeHead = .waits) (o : Interleaving) :
    exec (.managementTake o) s = .next s := running_of_fixed (f := (State.manage · o)) (manage_waits judged o)

/-- An operation's own row changes nothing where the head does not run that operation (log 12). -/
theorem takeOf_of_not_run {s : State} {op : Operation} (other : ∀ e, s.judgeHead ≠ .run e op) (o : Interleaving) :
    State.takeOf op o s = s := by
  unfold State.takeOf
  split
  · next judged => exact if_neg fun same => other _ (same ▸ judged)
  all_goals rfl

/-! ### The reply and its delivery (R148, R149) -/

/-- Where no call reply is owed, the demands between are taken, and then the reply is offered. -/
theorem answer_of_not_owed {x : Executed} (paid : x.owed = none) (gsn : Station) (o : Interleaving) (q : Request) (r : Bool) :
    State.answer gsn o q x r = (((o.between.foldl State.takeDemand x.state).writeReply q.buffer x.payload).offerManagement q
      (managementEntry gsn q x.status x.payload r)).release q.buffer := by
  simp [State.answer, State.interleave, State.sendOwed, paid]

theorem ports_writeReply (s : State) (b : BufIx) (l : List Byte) : (s.writeReply b l).ports = s.ports := by
  unfold State.writeReply
  split <;> rfl

theorem onlyHolding_writeReply (s : State) (b : BufIx) (l : List Byte) : OnlyHolding s (s.writeReply b l) := by
  unfold State.writeReply
  split
  · exact .refl s
  · exact .ofPool s _

theorem accepts_writeReply (s : State) (b : BufIx) (l : List Byte) (p : Port) (k : QueueId) :
    (s.writeReply b l).accepts p k = s.accepts p k :=
  accepts_of_ports (ports_writeReply s b l) (onlyHolding_writeReply s b l).tables p k

theorem writeReply_nil (s : State) (b : BufIx) : s.writeReply b [] = s := if_pos rfl

theorem buffer_writeReply {l : List Byte} (some : l ≠ []) (s : State) (b c : BufIx) :
    (s.writeReply b l).buffer c = if b = c then { s.buffer b with payload := l } else s.buffer c := by
  rw [State.writeReply, if_neg some, State.buffer_modBuffer]

theorem buffer_writeReply_other (l : List Byte) (s : State) {b c : BufIx} (other : c ≠ b) :
    (s.writeReply b l).buffer c = s.buffer c := by
  by_cases empty : l = []
  · rw [empty, writeReply_nil]
  · rw [buffer_writeReply empty, if_neg (Ne.symm other)]

theorem holds_writeReply (s : State) (b : BufIx) (l : List Byte) (c : BufIx) :
    ((s.writeReply b l).buffer c).holds = (s.buffer c).holds := by
  by_cases empty : l = []
  · rw [empty, writeReply_nil]
  · rw [buffer_writeReply empty]
    split
    · next same => rw [same]
    · rfl

theorem buffer_holdOpt (s : State) (o : Option BufIx) (c : BufIx) :
    (s.holdOpt o).buffer c = if o = some c then { s.buffer c with holds := (s.buffer c).holds + 1 } else s.buffer c := by
  cases o with
  | none => rfl
  | some b =>
    rw [State.holdOpt, State.hold, State.buffer_modBuffer]
    by_cases same : b = c
    · simp [same]
    · simp [same]

theorem mgmt_holdOpt (s : State) (o : Option BufIx) : (s.holdOpt o).mgmt = s.mgmt := by cases o <;> rfl

theorem offerManagement_accepted {s : State} {q : Request} {e : QueueEntry} {t : State}
    (delivered : s.deliver q.port .g e = some t) : s.offerManagement q e = t := by
  rw [State.offerManagement, delivered]

theorem offerManagement_lost {s : State} {q : Request} (refused : s.accepts q.port .g = false) (e : QueueEntry) :
    s.offerManagement q e
      = if e.restartReply then (s.raise (.event .gwReplyLost)).reportRestart else s.raise (.event .gwReplyLost) := by
  rw [State.offerManagement, deliver_eq_none.mpr refused]

/-- What a reply leaves as it was, from the state u it is offered in to the state t after the request's own hold is released. -/
structure ReplySpares (q : Request) (u t : State) : Prop where
  calls : t.calls = u.calls
  counters : t.events.counters = u.events.counters
  mgmtQueue : t.mgmt.queue = u.mgmt.queue
  queue : ∀ p k, p ≠ q.port ∨ k ≠ .g → t.queue p k = u.queue p k
  buffer : ∀ b, b ≠ q.buffer → t.buffer b = u.buffer b
  flagged : ∀ f, u.flagged f → t.flagged f

/-- R148: the reply e with the payload l stands at the back of G, and holds the request's buffer where it has a payload. -/
structure ReplyQueued (q : Request) (e : QueueEntry) (l : List Byte) (u t : State) : Prop extends ReplySpares q u t where
  joined : t.queue q.port .g = u.queue q.port .g ++ [e]
  carried : l ≠ [] → (t.buffer q.buffer).payload = l ∧ (t.buffer q.buffer).holds = (u.buffer q.buffer).holds
  released : l = [] → (t.buffer q.buffer).holds = (u.buffer q.buffer).holds - 1

/-- R148, R160: the reply e is lost, and a lost RESTART reply is reported at once. -/
structure ReplyLost (q : Request) (e : QueueEntry) (u t : State) : Prop extends ReplySpares q u t where
  lost : t.flagged (.event .gwReplyLost)
  unjoined : t.queue q.port .g = u.queue q.port .g
  released : (t.buffer q.buffer).holds = (u.buffer q.buffer).holds - 1
  reported : ∀ p, e.restartReply = true → u.mgmt.restart = .awaiting p ∨ u.mgmt.restart = .reported p →
    t.mgmt.restart = .reported p

section
variable {q : Request} {e : QueueEntry} {l : List Byte} {u : State}

theorem replyQueued (named : e.buffer = if l = [] then none else some q.buffer) (accepted : u.accepts q.port .g = true) :
    ReplyQueued q e l u (((u.writeReply q.buffer l).offerManagement q e).release q.buffer) := by
  have written := onlyHolding_writeReply u q.buffer l
  obtain ⟨w, delivered⟩ : ∃ w, (u.writeReply q.buffer l).deliver q.port .g e = some w :=
    ⟨_, deliver_eq_some.mpr ⟨(accepts_writeReply u _ l _ _).trans accepted, rfl⟩⟩
  have joined := onlyQueue_deliver delivered
  have back := queue_delivered delivered
  have released := onlyHolding_release w q.buffer
  have mgmt : w.mgmt = u.mgmt := by
    obtain ⟨-, rfl⟩ := deliver_eq_some.mp delivered
    rw [mgmt_holdOpt]
    exact written.mgmt
  have held (b : BufIx) : w.buffer b = if e.buffer = some b
      then { (u.writeReply q.buffer l).buffer b with holds := (u.buffer b).holds + 1 } else (u.writeReply q.buffer l).buffer b := by
    obtain ⟨-, rfl⟩ := deliver_eq_some.mp delivered
    rw [buffer_holdOpt, ← holds_writeReply u q.buffer l b]
    rfl
  rw [offerManagement_accepted delivered]
  refine ⟨⟨?_, ?_, ?_, fun p k other => ?_, fun b other => ?_, fun f set => ?_⟩, ?_, fun some => ?_, fun empty => ?_⟩
  · rw [released.calls, joined.calls, written.calls]
  · rw [released.counters, joined.counters, written.counters]
  · rw [released.mgmt, mgmt]
  · rw [released.queue, joined.queue p k other, written.queue]
  · have apart : e.buffer ≠ .some b := by
      rw [named]
      split
      · simp
      · simpa using Ne.symm other
    rw [buffer_release, if_neg (Ne.symm other), held, if_neg apart, buffer_writeReply_other l u other]
  · exact released.flagged f (joined.flagged f (written.flagged f set))
  · rw [released.queue, back, written.queue]
  · have own : e.buffer = .some q.buffer := named.trans (if_neg some)
    have carried : ((u.writeReply q.buffer l).buffer q.buffer).payload = l := by rw [buffer_writeReply some, if_pos rfl]
    rw [buffer_release, if_pos rfl, held, if_pos own]
    exact ⟨carried, rfl⟩
  · have unnamed : e.buffer = none := named.trans (if_pos empty)
    rw [holds_release, if_pos rfl, held, unnamed, if_neg (by simp), holds_writeReply]

theorem replyLost (l : List Byte) (e : QueueEntry) (refused : u.accepts q.port .g = false) :
    ReplyLost q e u (((u.writeReply q.buffer l).offerManagement q e).release q.buffer) := by
  have written := onlyHolding_writeReply u q.buffer l
  have raised := onlyFlags_raise (u.writeReply q.buffer l) (.event .gwReplyLost)
  have told := flagged_raise (u.writeReply q.buffer l) (.event .gwReplyLost)
  rw [offerManagement_lost ((accepts_writeReply u _ l _ _).trans refused)]
  generalize (u.writeReply q.buffer l).raise (.event .gwReplyLost) = v at raised told ⊢
  obtain ⟨w, known⟩ : ∃ w, w = if e.restartReply then v.reportRestart else v := ⟨_, rfl⟩
  have same : w = { v with mgmt := { v.mgmt with restart := w.mgmt.restart } } := by
    rw [known]
    unfold State.reportRestart
    split
    · split <;> rfl
    · rfl
  rw [← known]
  have released := onlyHolding_release w q.buffer
  have queue (p : Port) (k : QueueId) : w.queue p k = u.queue p k := by
    rw [same]
    exact (raised.queue p k).trans (written.queue p k)
  have buffer (b : BufIx) : w.buffer b = (u.writeReply q.buffer l).buffer b := by
    rw [same]
    exact raised.buffer b
  have flagged (f : Flag) (set : v.flagged f) : w.flagged f := by
    rw [same]
    exact set
  refine ⟨⟨?_, ?_, ?_, fun p k _ => ?_, fun b other => ?_, fun f set => ?_⟩, released.flagged _ (flagged _ told), ?_, ?_,
    fun p carries pending => ?_⟩
  · rw [released.calls, same]
    exact raised.calls.trans written.calls
  · rw [released.counters, same]
    exact raised.counters.trans written.counters
  · rw [released.mgmt, same]
    exact (congrArg Mgmt.queue raised.mgmt).trans (congrArg Mgmt.queue written.mgmt)
  · rw [released.queue, queue]
  · rw [buffer_release, if_neg (Ne.symm other), buffer, buffer_writeReply_other l u other]
  · exact released.flagged f (flagged f (raised.flagged f (written.flagged f set)))
  · rw [released.queue, queue]
  · rw [holds_release, if_pos rfl, buffer, holds_writeReply]
  · have before : v.mgmt.restart = u.mgmt.restart := by rw [raised.mgmt, written.mgmt]
    rw [released.mgmt, known, if_pos carries]
    rcases pending with pending | pending
    · exact restart_reportRestart (before.trans pending)
    · exact (onlyReleases_reportRestart v).reported p (before.trans pending)

end

/-! ### Requests that are refused (R146, R147) -/

/-- R149: the entry of a reply without a payload. -/
theorem managementEntry_nil (gsn : Station) (q : Request) (st : Status) : managementEntry gsn q st [] false
    = emptyReply q.ring q.header.src gsn q.header.svc q.header.tag 0 st.code := rfl

/-- A refused request is answered from the state it leaves, where no demand is taken between. -/
theorem answer_refusedWith (gsn : Station) (after : Bool) (q : Request) (u : State) (st : Status) :
    State.answer gsn ⟨after, []⟩ q (refusedWith u st) false = ((u.writeReply q.buffer []).offerManagement q
      (emptyReply q.ring q.header.src gsn q.header.svc q.header.tag 0 st.code)).release q.buffer :=
  (answer_of_not_owed rfl gsn ⟨after, []⟩ q false).trans (by rw [← managementEntry_nil]; rfl)

theorem mgmtQueue_dropHead {s : State} {e : MgmtEntry} {es : List MgmtEntry} (front : s.mgmt.queue = e :: es) :
    s.dropHead.mgmt.queue = es := by
  rw [State.dropHead, front]
  rfl

/-! ### The operation a request names (R147) -/

/-- Section 11.4: the operations of fixed length by service number, with the kind and the payload length each asks for. -/
def plainRows : List (Svc × Operation × Kind × Nat) := [(1, .identify, .query, 0), (2, .readTable, .query, 4),
  (4, .clearTable, .command, 3), (5, .readState, .query, 0), (6, .setPortState, .command, 2), (7, .abortQueue, .command, 2),
  (8, .cancelCall, .command, 2), (9, .readCall, .query, 1), (10, .readEvents, .query, 0), (11, .readCounters, .query, 2),
  (12, .probe, .query, 8), (13, .restart, .command, 0)]

theorem plainOperation_of_mem : ∀ row ∈ plainRows, row.1 ≠ 3 ∧ plainOperation row.1 = some row.2 := by decide

theorem plainOperation_eq_none {svc : Svc} (unnamed : svc = 0 ∨ 13 < svc) : plainOperation svc = none := by
  have ne (k : Nat) (low : 1 ≤ k) (high : k ≤ 13) : svc ≠ BitVec.ofNat 12 k := by
    rintro rfl
    rcases unnamed with zero | above
    · exact absurd (congrArg BitVec.toNat zero) (by simp; omega)
    · exact absurd (BitVec.lt_def.mp above) (by simp; omega)
  simp [plainOperation, ne 1, ne 2, ne 4, ne 5, ne 6, ne 7, ne 8, ne 9, ne 10, ne 11, ne 12, ne 13]

/-- Section 11.4: the tables by code, with the operation that writes an entry and the length of its image. -/
def tableRows : List (Byte × Operation × Nat) := [(1, .writeRule, 23), (2, .writeService, 19), (3, .writePort, 13),
  (4, .writeQueue, 3), (5, .writeGateway, 24)]

theorem ofCode_of_mem : ∀ row ∈ tableRows, (TableName.ofCode row.1).map (fun t => (t.write, t.imageLength)) = some row.2 := by
  decide

theorem ofCode_eq_none {b : Byte} (unnamed : b = 0 ∨ 5 < b) : TableName.ofCode b = none := by
  have ne (k : Nat) (low : 1 ≤ k) (high : k ≤ 5) : b ≠ BitVec.ofNat 8 k := by
    rintro rfl
    rcases unnamed with zero | above
    · exact absurd (congrArg BitVec.toNat zero) (by simp; omega)
    · exact absurd (BitVec.lt_def.mp above) (by simp; omega)
  simp [TableName.ofCode, ne 1, ne 2, ne 3, ne 4, ne 5]

section
variable {h : Header} {pl : List Byte}

theorem operationOf_plain (plain : h.svc ≠ 3) {op : Operation} {k : Kind} {n : Nat}
    (row : plainOperation h.svc = some (op, k, n)) : operationOf h pl
      = if h.kind ≠ k then .inl .badOp else if pl.length = n then .inr op else .inl .badLength := by
  rw [operationOf, if_neg plain, row]

theorem operationOf_unnamed (unnamed : h.svc = 0 ∨ 13 < h.svc) : operationOf h pl = .inl .badOp := by
  have plain : h.svc ≠ 3 := by
    intro write
    rw [write] at unnamed
    exact absurd unnamed (by decide)
  rw [operationOf, if_neg plain, plainOperation_eq_none unnamed]

theorem operationOf_write (write : h.svc = 3) (command : h.kind = .command) : operationOf h pl = writeOperation pl := by
  rw [operationOf, if_pos write, if_pos command]

theorem operationOf_write_query (write : h.svc = 3) (query : h.kind = .query) : operationOf h pl = .inl .badOp := by
  rw [operationOf, if_pos write, if_neg (by simp [query])]

theorem writeOperation_short (short : pl.length < 2) : writeOperation pl = .inl .badLength := if_pos short

theorem writeOperation_badTable (long : 2 ≤ pl.length) (unnamed : byteAt pl 0 = 0 ∨ 5 < byteAt pl 0) :
    writeOperation pl = .inl .badTable := by
  rw [writeOperation, if_neg (Nat.not_lt.mpr long), ofCode_eq_none unnamed]

theorem writeOperation_named (long : 2 ≤ pl.length) {t : TableName} (named : TableName.ofCode (byteAt pl 0) = some t) :
    writeOperation pl = if pl.length = 2 + t.imageLength then .inr t.write else .inl .badLength := by
  rw [writeOperation, if_neg (Nat.not_lt.mpr long), named]

end

end Sys2Proof.Machine

open Sys2Proof Sys2Proof.Machine

/-- Settles O38: the two rows take the same head, and another operation's row takes none. -/
theorem operationRowsAreTakes : Obligations.OperationRowsAreTakes := by
  intro op o s
  refine ⟨fun e runs => ?_, fun other => ?_⟩
  · rw [exec_rowOf_of_runs runs o, exec_managementTake runs.1, manage_run runs.2]
    exact ⟨rfl, rfl⟩
  · have same := running_of_fixed (takeOf_of_not_run other o)
    cases op <;> exact same

/-- Settles O36: the head by the first check that it fails, and each take with what it leaves. -/
theorem managementHeadIsJudged : Obligations.ManagementHeadIsJudged := by
  intro s o
  refine ⟨fun waiting => exec_managementTake_waits (judgeHead_of_waiting waiting) o, ?_⟩
  intro e es run clear front h ring permitted
  have judged : s.judgeHead = s.judgeEntry e := judgeHead_of_cons clear front
  have dropped := mgmtQueue_dropHead front
  refine ⟨fun answer => ?_, fun request barred => ?_, fun request admitted full => ?_,
    fun request admitted accepted forbidden => ?_⟩
  · have released := onlyHolding_release s.dropHead.discarded e.buffer
    refine ⟨_, exec_managementTake run _, ?_⟩
    rw [manage_discardKind (judged.trans (judgeEntry_discardKind answer))]
    exact ⟨(congrArg Mgmt.queue released.mgmt).trans dropped, congrArg GatewayCounters.discarded released.counters,
      fun q => released.queue q .g, (holds_release _ _ _).trans (by rw [if_pos rfl]; rfl)⟩
  · have raised := onlyFlags_raise s.dropHead (.event .mgmtRefused)
    have released := onlyHolding_release (s.dropHead.raise (.event .mgmtRefused)) e.buffer
    refine ⟨_, exec_managementTake run _, ?_⟩
    rw [manage_discardAdmit (judged.trans (judgeEntry_discardAdmit request barred))]
    refine ⟨by rw [released.mgmt, raised.mgmt, dropped], released.flagged _ (flagged_raise _ _),
      fun q => (released.queue q .g).trans (raised.queue q .g), released.counters.trans raised.counters, ?_⟩
    rw [holds_release, if_pos rfl, raised.buffer]
    rfl
  · exact exec_managementTake_waits (judged.trans (judgeEntry_waits request admitted full)) o
  · have room : (s.port e.port).gq.length < 8 := ((accepts_g_iff s e.port).mp accepted).2
    have barred : s.ringPasses (s.request e) = false := Bool.eq_false_iff.mpr fun passes =>
      forbidden ((ringPasses_iff s (s.request e)).mp passes)
    have raised := onlyFlags_raise s.dropHead (.event .mgmtRefused)
    have taken := manage_ringRefused (judged.trans (judgeEntry_ringRefused request admitted room barred)) ⟨o.callReplyAfter, []⟩
    refine ⟨_, exec_managementTake run _, ?_⟩
    have keeps := (keeps_answer s.settings.gsn ⟨o.callReplyAfter, []⟩ (s.request e)
      (refusedWith (s.dropHead.raise (.event .mgmtRefused)) .ring) false).tables
    rw [← taken] at keeps
    rw [answer_refusedWith] at taken
    have accepted : (s.dropHead.raise (.event .mgmtRefused)).accepts (s.request e).port .g = true :=
      (accepts_of_ports raised.ports raised.tables _ _).trans accepted
    have queued := replyQueued (l := []) (e := emptyReply ring h.src s.settings.gsn h.svc h.tag 0 Status.ring.code) rfl accepted
    rw [taken]
    refine ⟨queued.mgmtQueue.trans ((congrArg Mgmt.queue raised.mgmt).trans dropped), queued.flagged _ (flagged_raise _ _), ?_,
      queued.joined.trans (congrArg (· ++ _) (raised.queue e.port .g))⟩
    rw [← taken, keeps]
    exact raised.tables

/-- Settles O37: behind the ring checks the request's service number, kind and payload name the operation or the refusal. -/
theorem requestNamesItsOperation : Obligations.RequestNamesItsOperation := by
  intro s e es run clear front h pl ring admitted room permitted plain tables answered
  have request : h.kind.isRequest = true := by
    rcases permitted with ⟨kind, -⟩ | ⟨kind, -⟩ <;> (rw [kind]; rfl)
  obtain ⟨refused, ran⟩ := judgeEntry_passed (e := e) request admitted room ((ringPasses_iff s (s.request e)).mpr permitted)
  have judged : s.judgeHead = s.judgeEntry e := judgeHead_of_cons clear front
  have runs {op : Operation} (asked : operationOf h pl = .inr op) : s.runs e op := ⟨run, judged.trans (ran op asked)⟩
  have answer {st : Status} (asked : operationOf h pl = .inl st) : answered st := by
    intro after
    have taken := manage_refused (judged.trans (refused st asked)) ⟨after, []⟩
    have kept := (keeps_answer s.settings.gsn ⟨after, []⟩ (s.request e) (refusedWith s.dropHead st) false).tables
    rw [← taken] at kept
    rw [answer_refusedWith] at taken
    refine ⟨_, exec_managementTake run _, ?_⟩
    cases serves : (s.port e.port).state.inService with
    | true =>
      have accepted : s.dropHead.accepts (s.request e).port .g = true := by
        simpa [State.accepts, serves] using ⟨serves, room⟩
      have queued : ReplyQueued (s.request e) (emptyReply ring h.src s.settings.gsn h.svc h.tag 0 st.code) [] s.dropHead
          (s.manage ⟨after, []⟩) := by
        rw [taken]
        exact replyQueued rfl accepted
      exact ⟨queued.mgmtQueue.trans (mgmtQueue_dropHead front), kept, queued.calls, queued.counters, queued.released rfl,
        queued.queue, fun _ => queued.joined, nofun⟩
    | false =>
      have barred : s.dropHead.accepts (s.request e).port .g = false := by
        rw [State.accepts, show (s.dropHead.port (s.request e).port).state.inService = false from serves, Bool.false_and]
      have lost : ReplyLost (s.request e) (emptyReply ring h.src s.settings.gsn h.svc h.tag 0 st.code) s.dropHead
          (s.manage ⟨after, []⟩) := by
        rw [taken]
        exact replyLost [] _ barred
      exact ⟨lost.mgmtQueue.trans (mgmtQueue_dropHead front), kept, lost.calls, lost.counters, lost.released, lost.queue, nofun,
        fun _ => ⟨lost.unjoined, lost.lost⟩⟩
  refine ⟨fun svc op kind n mem asked => ?_, fun unnamed => answer (operationOf_unnamed unnamed), fun write => ⟨fun query => ?_,
    fun command short => ?_, fun command long unnamed => ?_, fun code op n mem command long named => ?_⟩⟩
  · obtain ⟨noWrite, row⟩ := plainOperation_of_mem _ mem
    have named : operationOf h pl
        = if h.kind ≠ kind then .inl .badOp else if pl.length = n then .inr op else .inl .badLength :=
      operationOf_plain (asked ▸ noWrite) (asked ▸ row)
    refine ⟨fun same len => runs ?_, fun other => answer ?_, fun same len => answer ?_⟩
    · rw [named, if_neg (not_not.mpr same), if_pos len]
    · rw [named, if_pos other]
    · rw [named, if_neg (not_not.mpr same), if_neg len]
  · exact answer (operationOf_write_query write query)
  · exact answer ((operationOf_write write command).trans (writeOperation_short short))
  · exact answer ((operationOf_write write command).trans (writeOperation_badTable long unnamed))
  · obtain ⟨t, code, row⟩ := Option.map_eq_some_iff.mp (ofCode_of_mem _ mem)
    obtain ⟨rfl, rfl⟩ := Prod.mk.inj row
    have named := (operationOf_write write command).trans (writeOperation_named long (named ▸ code))
    refine ⟨fun len => runs ?_, fun len => answer ?_⟩
    · rw [named, if_pos len]
    · rw [named, if_neg len]

end

section
/-! The reply of an operation that ran (R148, R160), what the notice attempts taken meanwhile leave as it was (R100, R167), the two
operations that report and reset (R154, R155), and the statements about them. -/

namespace Sys2Proof.Machine
open Sys2Proof

/-! ### Notice attempts (R100, R167) -/

/-- From s to t notices were made: the ports' own items changed in their G queues alone, and besides the pool only the triggers,
ARMED and flags changed. -/
structure MakesNotices (s t : State) : Prop where
  ports : ∀ q, t.port q = { s.port q with gq := (t.port q).gq }
  tables : t.tables = s.tables
  calls : t.calls = s.calls
  mgmt : t.mgmt = s.mgmt
  claims : t.wires.claims = s.wires.claims
  capture : t.events.capture = s.events.capture
  counters : t.events.counters = s.events.counters
  flagged : ∀ f, s.flagged f → t.flagged f

namespace MakesNotices

theorem refl (s : State) : MakesNotices s s := ⟨fun _ => rfl, rfl, rfl, rfl, rfl, rfl, rfl, fun _ set => set⟩

theorem trans {s t u : State} (h : MakesNotices s t) (k : MakesNotices t u) : MakesNotices s u where
  ports := fun q => by rw [k.ports q, h.ports q]
  tables := k.tables.trans h.tables
  calls := k.calls.trans h.calls
  mgmt := k.mgmt.trans h.mgmt
  claims := k.claims.trans h.claims
  capture := k.capture.trans h.capture
  counters := k.counters.trans h.counters
  flagged := fun f set => k.flagged f (h.flagged f set)

theorem foldl {α : Type} {f : State → α → State} (h : ∀ s a, MakesNotices s (f s a)) (l : List α) (s : State) :
    MakesNotices s (l.foldl f s) := by
  induction l generalizing s with
  | nil => exact refl s
  | cons a l ih => exact (h s a).trans (ih (f s a))

theorem ofFlags {s t : State} (h : OnlyFlags s t) : MakesNotices s t :=
  ⟨fun q => by rw [h.port], h.tables, h.calls, h.mgmt, h.claims, h.capture, h.counters, h.flagged⟩

end MakesNotices

theorem makesNotices_noticeAttempt (s : State) : MakesNotices s s.noticeAttempt := by
  unfold State.noticeAttempt
  split
  · split
    · exact .refl s
    · split
      · exact .refl s
      · next u delivered =>
        have made : MakesNotices s u := by
          obtain ⟨-, rfl⟩ := deliver_eq_some.mp delivered
          exact ⟨fun q => port_setQueue_g _ _ q _, rfl, rfl, rfl, rfl, rfl, rfl, fun _ set => set⟩
        have disarmed : MakesNotices u u.disarm := ⟨fun _ => rfl, rfl, rfl, rfl, rfl, rfl, rfl, fun _ set => set⟩
        exact (made.trans disarmed).trans (.ofFlags (onlyFlags_judge _ _ _))
  · exact .refl s

theorem makesNotices_noticeStep (s : State) (f : Flag) : MakesNotices s (s.noticeStep f) := by
  have dropped : MakesNotices s (s.dropTrigger f) := ⟨fun _ => rfl, rfl, rfl, rfl, rfl, rfl, rfl, fun _ set => set⟩
  unfold State.noticeStep
  split
  · split
    · exact dropped.trans (makesNotices_noticeAttempt _)
    · exact dropped
  · exact .refl s

/-! ### RESTART pending (R160) -/

/-- RESTART is pending for the requester on port p, and its reply may have been reported already. -/
def RestartPending (p : Port) (s : State) : Prop := s.mgmt.restart = .awaiting p ∨ s.mgmt.restart = .reported p

theorem restartPending_of_mgmt {s t : State} {p : Port} (same : t.mgmt = s.mgmt) (h : RestartPending p s) : RestartPending p t := by
  rw [RestartPending, same]
  exact h

theorem restartPending_entryLeft {s : State} {p : Port} (h : RestartPending p s) (e : QueueEntry) :
    RestartPending p (s.entryLeft e) := by
  rcases h with awaiting | reported
  · cases carries : e.restartReply with
    | true => exact .inr (restart_entryLeft carries awaiting)
    | false => exact .inl ((restart_entryLeft_plain carries).trans awaiting)
  · exact .inr ((onlyReleases_entryLeft s e).reported p reported)

/-- What every step of a list of steps keeps, the whole list keeps. -/
theorem restartPending_foldl {α : Type} {f : State → α → State} {p : Port}
    (step : ∀ s a, RestartPending p s → RestartPending p (f s a)) (l : List α) {s : State} (h : RestartPending p s) :
    RestartPending p (l.foldl f s) := by
  induction l generalizing s with
  | nil => exact h
  | cons a l ih => exact ih (step s a h)

theorem restartPending_withdrawFrom {p : Port} (q : Port) (tag : Tag) (s : State) (d : DataQ) (h : RestartPending p s) :
    RestartPending p (s.withdrawFrom q tag d) :=
  restartPending_foldl (fun _ e pending => restartPending_entryLeft pending e) _
    (restartPending_of_mgmt (s := s) (t := s.setQueue q (.data d) _) rfl h)

theorem restartPending_withdrawStep {s : State} {p : Port} (h : RestartPending p s) (q : Port) (tag : Tag) :
    RestartPending p (s.withdrawStep q tag) := by
  unfold State.withdrawStep
  split
  · exact restartPending_foldl (restartPending_withdrawFrom q tag) _ h
  · exact h

theorem mgmt_takeOldest (s : State) (sort : Claim → Bool) : (s.takeOldest sort).mgmt = s.mgmt := by
  cases found : s.wires.claims.find? sort with
  | none => rw [takeOldest_of_none found]
  | some c =>
    rw [takeOldest_of_find found]
    exact (endsCalls_takeClaim (s.takesUp c) c).mgmt

theorem restartPending_takeDemand {p : Port} (s : State) (d : Demand) (h : RestartPending p s) :
    RestartPending p (s.takeDemand d) := by
  cases d with
  | delivered q => exact restartPending_of_mgmt (mgmt_takeOldest s _) h
  | undeliverable q => exact restartPending_of_mgmt (mgmt_takeOldest s _) h
  | targetPortDown q => exact restartPending_of_mgmt (mgmt_takeOldest s _) h
  | portDown q => exact restartPending_of_mgmt (mgmt_takeOldest s _) h
  | withdraw q tag => exact restartPending_withdrawStep h q tag
  | notice f => exact restartPending_of_mgmt (makesNotices_noticeStep s f).mgmt h

/-! ### Operations and the reset pin -/

theorem OnlyTables.resetAsserted {s t : State} (h : OnlyTables s t) : t.resetAsserted = s.resetAsserted := by
  unfold OnlyTables at h
  rw [h]

/-- No operation moves the reset pin. -/
theorem resetAsserted_execute (op : Operation) (s : State) (q : Request) :
    (execute op s q).state.resetAsserted = s.resetAsserted := by
  cases writes : op.writesTables with
  | false => exact (keeps_execute writes s q).resetAsserted
  | true =>
    cases op with
    | writeRule => exact (onlyTables_opWriteRule s q).resetAsserted
    | writeService => exact (onlyTables_opWriteService s q).resetAsserted
    | writePort => exact (onlyTables_opWritePort s q).resetAsserted
    | writeQueue => exact (onlyTables_opWriteQueue s q).resetAsserted
    | clearTable => exact (onlyTables_opClearTable s q).resetAsserted
    | writeGateway =>
      show (opWriteGateway s q).state.resetAsserted = _
      unfold opWriteGateway
      split
      · rfl
      · split
        · rfl
        · next r _ =>
          split
          · rfl
          · exact (keeps_writeSettings s r).resetAsserted
    | _ => contradiction

/-! ### READ COUNTERS (R155, R170) -/

section
variable {s : State} {q : Request}

theorem opReadCounters_badIndex (outside : 4 < byteAt q.payload 0) : opReadCounters s q = refusedWith s .badIndex := if_pos outside

variable (inside : byteAt q.payload 0 ≤ 4)
include inside

theorem opReadCounters_badValue (bad : 1 < byteAt q.payload 1) : opReadCounters s q = refusedWith s .badValue :=
  (if_neg (by bv_omega)).trans (if_pos bad)

variable (good : byteAt q.payload 1 ≤ 1)
include good

theorem opReadCounters_port {p : Port} (named : portOf (byteAt q.payload 0) = some p) : opReadCounters s q
    = doneWith (if byteAt q.payload 1 = 1 then s.modPortCount p (fun _ => PortCounters.reset) else s)
      (portCounts (s.port p).counters) := by
  rw [opReadCounters, if_neg (by bv_omega), if_neg (by bv_omega), named]

theorem opReadCounters_gateway (named : portOf (byteAt q.payload 0) = none) : opReadCounters s q
    = doneWith (if byteAt q.payload 1 = 1 then s.modCount (fun _ => GatewayCounters.reset) else s)
      (gatewayCounts s.events.counters) := by
  rw [opReadCounters, if_neg (by bv_omega), if_neg (by bv_omega), named]

end

/-- Without the reset bit the counters are read and nothing changes. -/
theorem opReadCounters_reads {s : State} {q : Request} (inside : byteAt q.payload 0 ≤ 4) (zero : byteAt q.payload 1 = 0) :
    (opReadCounters s q).state = s ∧ (opReadCounters s q).status = .ok := by
  have good : byteAt q.payload 1 ≤ 1 := by bv_omega
  have keeps : byteAt q.payload 1 ≠ 1 := by bv_omega
  cases named : portOf (byteAt q.payload 0) with
  | none =>
    rw [opReadCounters_gateway inside good named, if_neg keeps]
    exact ⟨rfl, rfl⟩
  | some p =>
    rw [opReadCounters_port inside good named, if_neg keeps]
    exact ⟨rfl, rfl⟩

theorem opReadCounters_owed (s : State) (q : Request) : (opReadCounters s q).owed = none := by
  unfold opReadCounters
  split
  · rfl
  · split
    · rfl
    · split <;> rfl

end Sys2Proof.Machine

open Sys2Proof Sys2Proof.Machine

/-- Settles O39: after the demands between, the reply joins G or is lost, and the request's own hold is released. -/
theorem managementReplyIsDelivered : Obligations.ManagementReplyIsDelivered := by
  intro s o e op runs q x paid
  have ran : x.state.resetAsserted = false := (resetAsserted_execute op s.dropHead q).trans runs.1
  obtain ⟨u, between⟩ : ∃ u, u = o.between.foldl State.takeDemand x.state := ⟨_, rfl⟩
  have kept := (keeps_answer s.settings.gsn o q x (op == .restart)).tables
  have taken : s.manage o = ((u.writeReply q.buffer x.payload).offerManagement q
      (managementEntry s.settings.gsn q x.status x.payload (op == .restart))).release q.buffer := by
    rw [manage_run runs.2, answer_of_not_owed paid, ← between]
  rw [← show s.manage o = _ from manage_run runs.2 o] at kept
  refine ⟨u, s.manage o, between ▸ runsDemands_foldl o.between ran, exec_managementTake runs.1 o, kept, ?_⟩
  rw [taken]
  cases accepted : u.accepts e.port .g with
  | true =>
    have queued := replyQueued (q := q) (l := x.payload)
      (e := managementEntry s.settings.gsn q x.status x.payload (op == .restart)) rfl accepted
    exact ⟨queued.calls, queued.queue, queued.buffer, fun _ => ⟨queued.joined, queued.carried, queued.released⟩, nofun⟩
  | false =>
    have lost := replyLost (q := q) x.payload (managementEntry s.settings.gsn q x.status x.payload (op == .restart)) accepted
    refine ⟨lost.calls, lost.queue, lost.buffer, nofun,
      fun _ => ⟨lost.lost, lost.unjoined, lost.released, fun restart => ?_⟩⟩
    have pending : RestartPending e.port u := by
      rw [between]
      refine restartPending_foldl restartPending_takeDemand _ (.inl ?_)
      show (execute op s.dropHead q).state.mgmt.restart = _
      rw [restart]
      rfl
    exact lost.reported e.port (by rw [restart]; rfl) pending

/-- Settles O43: READ EVENTS by the notice attempts it settles first, READ COUNTERS by the first check that fails or the counters it
reads. -/
theorem readEventsAndReadCountersReport : Obligations.ReadEventsAndReadCountersReport := by
  constructor
  · intro s o e runs c
    have run : s.dropHead.resetAsserted = false := runs.1
    obtain ⟨u, settled⟩ : ∃ u, u = s.wires.triggers.foldl State.noticeStep s.dropHead := ⟨_, rfl⟩
    have made : MakesNotices s.dropHead u := settled ▸ .foldl makesNotices_noticeStep _ _
    have capture : u.events.capture = c := made.capture
    refine ⟨opReadEvents s.dropHead (s.request e), u, exec_rowOf_of_runs runs o,
      settled ▸ runsDemands_notices s.wires.triggers run, ?_, rfl, rfl, made.flagged, ?_, ?_⟩
    · rw [settled]
      rfl
    · rw [← capture, settled]
      rfl
    · rw [← capture, settled]
      rfl
  · intro s o e runs pl k
    refine ⟨opReadCounters s.dropHead (s.request e), exec_rowOf_of_runs runs o, opReadCounters_owed _ _, fun outside => ?_,
      fun inside bad => ?_, fun inside zero => ?_, fun p named good => ?_, fun named good => ?_⟩
    · rw [opReadCounters_badIndex outside]
      exact ⟨rfl, rfl, rfl⟩
    · rw [opReadCounters_badValue inside bad]
      exact ⟨rfl, rfl, rfl⟩
    · exact opReadCounters_reads inside zero
    · have index : portOf (byteAt (s.request e).payload 0) = some p := named ▸ portOf_portByte p
      have inside : byteAt (s.request e).payload 0 ≤ 4 := by
        by_contra outside
        have none := portOf_eq_none (b := byteAt (s.request e).payload 0) (by bv_omega)
        exact nomatch none.symm.trans index
      rw [opReadCounters_port inside good index]
      refine ⟨rfl, rfl, fun reset => ?_⟩
      rw [if_pos reset]
      exact ⟨by simp [doneWith, State.modPortCount, PortCounters.reset], rfl,
        fun q other => (State.port_modPort _ p q _).trans (if_neg (Ne.symm other))⟩
    · have named : byteAt (s.request e).payload 0 = 4 := named
      rw [opReadCounters_gateway (by rw [named]; decide) good (portOf_eq_none (by rw [named]; decide))]
      refine ⟨rfl, rfl, fun reset => ?_⟩
      rw [if_pos reset]
      exact ⟨rfl, rfl⟩

end

section
/-! WRITE TABLE of the GATEWAY record (R161): the checks in their order, the judgements of R165 with the notice attempts they bring
(R167), what ABORT QUEUE and a former monitor port's M come to (R84, R87), and the statement about it. -/

namespace Sys2Proof.Machine
open Sys2Proof

/-! ### The image of the GATEWAY record (R161, R180) -/

/-- R161, first check. -/
def SettingsImageInRange (img : List Byte) : Prop :=
  byteAt img 0 ≤ 254 ∧ byteAt img 1 ≤ 1 ∧ 1 ≤ byteAt img 2 ∧ byteAt img 2 ≤ 16 ∧ byteAt img 3 ≤ 3
    ∧ byteAt img 4 ≤ 3 ∧ byteAt img 6 ≤ 3 ∧ halfAt img 7 ≤ 4095
    ∧ (∀ k, (wideAt img 9).getLsbD k = true → k ≠ 15 ∧ k ≤ 51)
    ∧ (byteAt img 17 ≤ 3 ∨ byteAt img 17 = 255) ∧ halfAt img 19 ≤ 4095 ∧ 1 ≤ byteAt img 21 ∧ byteAt img 21 ≤ 32
    ∧ 1 ≤ byteAt img 23 ∧ byteAt img 23 ≤ 128

theorem getLsbD_flagPlaces {k : Nat} (h : k < 64) : flagPlaces.getLsbD k = true ↔ k ≠ 15 ∧ k ≤ 51 := by
  have all : ∀ k : Fin 64, flagPlaces.getLsbD k = true ↔ k.val ≠ 15 ∧ k.val ≤ 51 := by decide
  exact all ⟨k, h⟩

/-- R179: a set names only flags if each of its bits is the place of one. -/
theorem namesOnlyFlags_iff (x : BitVec 64) : x &&& ~~~flagPlaces = 0 ↔ ∀ k, x.getLsbD k = true → k ≠ 15 ∧ k ≤ 51 := by
  constructor
  · intro none k set
    have inside : k < 64 := BitVec.lt_of_getLsbD set
    have bit : (x &&& ~~~flagPlaces).getLsbD k = false := by rw [none]; exact BitVec.getLsbD_zero
    rw [← getLsbD_flagPlaces inside]
    simpa [set, inside] using bit
  · intro places
    refine BitVec.eq_of_getLsbD_eq fun k inside => ?_
    cases set : x.getLsbD k with
    | false => simp [set]
    | true => simp [(getLsbD_flagPlaces inside).mpr (places k set)]

theorem settingsImageOk_iff (img : List Byte) : settingsImageOk img = true ↔ SettingsImageInRange img := by
  simp only [settingsImageOk, SettingsImageInRange, Bool.and_eq_true, Bool.or_eq_true, decide_eq_true_eq, beq_iff_eq, and_assoc,
    namesOnlyFlags_iff]

theorem settings_ofImage_eq_none {img : List Byte} (h : ¬ SettingsImageInRange img) : Settings.ofImage img = none :=
  if_neg (by rwa [settingsImageOk_iff])

/-- R180: a GATEWAY record read from an image of the table's length has that image. -/
theorem settings_ofImage_eq_some {img : List Byte} (len : img.length = 24) (h : SettingsImageInRange img) :
    ∃ r, Settings.ofImage img = some r ∧ r.image = img := by
  obtain ⟨r, read⟩ : ∃ r, Settings.ofImage img = some r := ⟨_, if_pos ((settingsImageOk_iff img).mpr h)⟩
  exact ⟨r, read, settings_image_of_ofImage len read⟩

/-! ### The operation (R161) -/

section
variable {s : State} {q : Request}

theorem opWriteGateway_badIndex (bad : byteAt q.payload 1 ≠ 0) : opWriteGateway s q = refusedWith s .badIndex := if_pos bad

variable (zero : byteAt q.payload 1 = 0)
include zero

theorem opWriteGateway_badValue (bad : ¬ SettingsImageInRange (writtenImage q)) :
    opWriteGateway s q = refusedWith s .badValue := by
  rw [opWriteGateway, if_neg (not_not.mpr zero), settings_ofImage_eq_none bad]

variable {r : Settings} (read : Settings.ofImage (writtenImage q) = some r)
include read

theorem opWriteGateway_wrongState (bad : r.reserve ≠ s.settings.reserve ∧ s.freeCount ≤ r.reserve.toNat) :
    opWriteGateway s q = refusedWith s .wrongState := by
  rw [opWriteGateway, if_neg (not_not.mpr zero), read]
  exact if_pos bad

theorem opWriteGateway_done (good : ¬ (r.reserve ≠ s.settings.reserve ∧ s.freeCount ≤ r.reserve.toNat)) :
    opWriteGateway s q = doneEmpty (writeSettings s r) := by
  rw [opWriteGateway, if_neg (not_not.mpr zero), read]
  exact if_neg good

end

theorem opWriteGateway_owed (s : State) (q : Request) : (opWriteGateway s q).owed = none := by
  unfold opWriteGateway
  split
  · rfl
  · split
    · rfl
    · split <;> rfl

/-! ### The judgements by the new marks (R165, R167) -/

/-- The notice attempts that a judgement leaves to be made: that of the flag it sets, where the flag is enabled and was clear. -/
theorem triggers_judge (s : State) (l : Level) (was : Bool) : ∃ new : List Flag,
    (s.judge l was).wires.triggers = s.wires.triggers ++ new ∧ new.Sublist [.rise l, .fall l]
      ∧ ∀ f, f ∈ new ↔
        ((f = .rise l ∧ was = false ∧ s.levelHolds l = true) ∨ (f = .fall l ∧ was = true ∧ s.levelHolds l = false))
        ∧ s.flagEnabled f = true ∧ s.flagSet f = false := by
  have raised (f : Flag) (mem : f ∈ [Flag.rise l, .fall l]) : ∃ new : List Flag,
      (s.raise f).wires.triggers = s.wires.triggers ++ new ∧ new.Sublist [.rise l, .fall l]
        ∧ ∀ g, g ∈ new ↔ g = f ∧ s.flagEnabled g = true ∧ s.flagSet g = false := by
    refine ⟨_, triggers_raise s f, ?_, fun g => ?_⟩
    · split
      · exact List.singleton_sublist.mpr mem
      · exact List.nil_sublist _
    · by_cases fires : (s.flagEnabled f && !s.flagSet f) = true
      · rw [if_pos fires, List.mem_singleton]
        refine ⟨?_, And.left⟩
        rintro rfl
        simpa using fires
      · rw [if_neg fires]
        refine ⟨fun mem => absurd mem List.not_mem_nil, ?_⟩
        rintro ⟨rfl, enabled, clear⟩
        simp [enabled, clear] at fires
  unfold State.judge
  split
  · next same =>
    refine ⟨[], (List.append_nil _).symm, List.nil_sublist _, fun f => ?_⟩
    rw [← same]
    cases was <;> simp
  · next differs =>
    cases was with
    | true =>
      have fallen : s.levelHolds l = false := by simpa using differs
      simpa [fallen] using raised (.fall l) (by simp)
    | false =>
      have risen : s.levelHolds l = true := by simpa using differs
      simpa [risen] using raised (.rise l) (by simp)

/-- R165: the level conditions that cross by a change of their marks, each with its flag. -/
def State.marksCross (s : State) (r : Settings) (f : Flag) : Prop :=
  (f = .rise .poolLow ∧ s.settings.lowMark.toNat < s.freeCount ∧ s.freeCount ≤ r.lowMark.toNat)
    ∨ (f = .fall .poolLow ∧ s.freeCount ≤ s.settings.lowMark.toNat ∧ r.lowMark.toNat < s.freeCount)
    ∨ (f = .rise .callsHigh ∧ s.recordsInUse < s.settings.highMark.toNat ∧ r.highMark.toNat ≤ s.recordsInUse)
    ∨ (f = .fall .callsHigh ∧ s.settings.highMark.toNat ≤ s.recordsInUse ∧ s.recordsInUse < r.highMark.toNat)

theorem marksCross_iff (s : State) (r : Settings) (f : Flag) : s.marksCross r f ↔
    ((f = .rise .poolLow ∧ s.levelHolds .poolLow = false ∧ (s.setSettings r).levelHolds .poolLow = true)
        ∨ (f = .fall .poolLow ∧ s.levelHolds .poolLow = true ∧ (s.setSettings r).levelHolds .poolLow = false))
      ∨ (f = .rise .callsHigh ∧ s.levelHolds .callsHigh = false ∧ (s.setSettings r).levelHolds .callsHigh = true)
      ∨ (f = .fall .callsHigh ∧ s.levelHolds .callsHigh = true ∧ (s.setSettings r).levelHolds .callsHigh = false) := by
  have low : (s.setSettings r).levelHolds .poolLow = decide (s.freeCount ≤ r.lowMark.toNat) := rfl
  have high : (s.setSettings r).levelHolds .callsHigh = decide (r.highMark.toNat ≤ s.recordsInUse) := rfl
  rw [low, high]
  simp only [State.marksCross, State.levelHolds, decide_eq_true_eq, decide_eq_false_iff_not, Nat.not_le, or_assoc]

/-- Between s and u the GATEWAY record r was written and judged by its marks, which left the notice attempts `new` to be made. -/
structure MarksJudged (s : State) (r : Settings) (new : List Flag) (u : State) : Prop where
  inOrder : new.Sublist [.rise .poolLow, .fall .poolLow, .rise .callsHigh, .fall .callsHigh]
  mem : ∀ f, f ∈ new ↔ s.marksCross r f ∧ r.noticeEn.getLsbD (flagBit f) = true ∧ s.flagSet f = false
  tables : u.tables = { s.tables with settings := r }
  flags : FlagsBecome s u (s.marksCross r)
  armed : u.events.armed = s.events.armed
  wires : u.wires = { s.wires with triggers := s.wires.triggers ++ new }
  ports : u.ports = s.ports
  pool : u.pool = s.pool
  calls : u.calls = s.calls
  timeBase : u.timeBase = s.timeBase
  resetAsserted : u.resetAsserted = s.resetAsserted

theorem marksJudged_judgeMarks (s : State) (r : Settings) : ∃ new, MarksJudged s r new (judgeMarks s r) := by
  obtain ⟨w, written⟩ : ∃ w, w = s.setSettings r := ⟨_, rfl⟩
  obtain ⟨v, low⟩ : ∃ v, v = w.judge .poolLow (s.levelHolds .poolLow) := ⟨_, rfl⟩
  have judged : judgeMarks s r = v.judge .callsHigh (s.levelHolds .callsHigh) := by rw [low, written]; rfl
  have wv : OnlyFlags w v := low ▸ onlyFlags_judge w _ _
  have vu := onlyFlags_judge v .callsHigh (s.levelHolds .callsHigh)
  have only := wv.trans vu
  have flagsLow : FlagsBecome w v _ := low ▸ flagsBecome_judge w .poolLow (s.levelHolds .poolLow)
  have flagsHigh := flagsBecome_judge v .callsHigh (s.levelHolds .callsHigh)
  obtain ⟨newLow, triggersLow, orderLow, memLow⟩ := triggers_judge w .poolLow (s.levelHolds .poolLow)
  obtain ⟨newHigh, triggersHigh, orderHigh, memHigh⟩ := triggers_judge v .callsHigh (s.levelHolds .callsHigh)
  rw [← low] at triggersLow
  rw [← judged] at triggersHigh flagsHigh only
  have holds (l : Level) : v.levelHolds l = w.levelHolds l := wv.levelHolds l
  have enabled (f : Flag) : v.flagEnabled f = w.flagEnabled f := by rw [State.flagEnabled, State.settings, wv.tables]; rfl
  have crosses (f : Flag) := marksCross_iff s r f
  have highClear (f : Flag) (high : f = .rise .callsHigh ∨ f = .fall .callsHigh) : v.flagSet f = w.flagSet f := by
    rw [Bool.eq_iff_iff, flagsLow f]
    rcases high with rfl | rfl <;> simp
  refine ⟨newLow ++ newHigh, orderLow.append orderHigh, fun f => ?_, ?_, ?_, ?_, ?_, ?_, ?_, ?_, ?_, ?_⟩
  · have clear (high : f = .rise .callsHigh ∨ f = .fall .callsHigh) : v.flagSet f = w.flagSet f := highClear f high
    have unsetHigh := memHigh f
    rw [holds, enabled] at unsetHigh
    have high : f ∈ newHigh ↔ _ ∧ w.flagEnabled f = true ∧ w.flagSet f = false := unsetHigh.trans
      (and_congr_right fun which => by rw [clear (which.imp And.left And.left)])
    rw [List.mem_append, memLow, high, ← or_and_right, crosses, written]
    rfl
  · rw [only.tables, written]; rfl
  · have both := flagsBecome_trans flagsLow flagsHigh
    rw [written] at both
    exact flagsBecome_congr both fun f => by rw [crosses, holds, written]
  · rw [only.armed, written]; rfl
  · rw [show (judgeMarks s r).wires = ⟨(judgeMarks s r).wires.claims, (judgeMarks s r).wires.withdraws,
      (judgeMarks s r).wires.triggers⟩ from rfl, only.claims, only.withdraws, triggersHigh, triggersLow, List.append_assoc,
      written]
    rfl
  · rw [only.ports, written]; rfl
  · rw [only.pool, written]; rfl
  · rw [only.calls, written]; rfl
  · rw [only.timeBase, written]; rfl
  · rw [only.resetAsserted, written]; rfl

/-! ### ABORT QUEUE (R84) -/

/-- R84: from s to t the entries of a list left port p's queues, each counted, its hold released and its call told. -/
structure EntriesAborted (p : Port) (es : List QueueEntry) (s t : State) : Prop where
  queue : ∀ q k, t.queue q k = s.queue q k
  counters : (t.port p).counters
    = { (s.port p).counters with txDropped := (s.port p).counters.txDropped + BitVec.ofNat 32 es.length }
  holds : ∀ b, (t.buffer b).holds = (s.buffer b).holds - es.countP (fun e => e.buffer == some b)
  claims : t.wires.claims
    = s.wires.claims ++ es.filterMap (fun e => e.callTag.map (fun tag => Claim.undeliverable p tag true))
  flagged : ∀ f, s.flagged f → t.flagged f

theorem entriesAborted_nil (p : Port) (s : State) : EntriesAborted p [] s s :=
  ⟨fun _ _ => rfl, by simp, fun _ => rfl, by simp, fun _ set => set⟩

theorem EntriesAborted.append {p : Port} {es fs : List QueueEntry} {s t u : State} (h : EntriesAborted p es s t)
    (k : EntriesAborted p fs t u) : EntriesAborted p (es ++ fs) s u where
  queue := fun q j => (k.queue q j).trans (h.queue q j)
  counters := by rw [k.counters, h.counters, List.length_append, BitVec.ofNat_add, BitVec.add_assoc]
  holds := fun b => by rw [k.holds, h.holds, List.countP_append, Nat.sub_sub]
  claims := by rw [k.claims, h.claims, List.filterMap_append, List.append_assoc]
  flagged := fun f set => k.flagged f (h.flagged f set)

theorem queue_modPortCount_any (s : State) (p q : Port) (f : PortCounters → PortCounters) (k : QueueId) :
    (s.modPortCount p f).queue q k = s.queue q k := by
  rw [State.queue, State.modPortCount, State.port_modPort]
  split
  · next same =>
    rw [← same]
    cases k <;> rfl
  · rfl

theorem entriesAborted_abortEntry (p : Port) (s : State) (e : QueueEntry) : EntriesAborted p [e] s (s.abortEntry p e) := by
  obtain ⟨u, counted⟩ : ∃ u, u = s.modPortCount p (fun c => { c with txDropped := c.txDropped + 1 }) := ⟨_, rfl⟩
  have left := entriesLeft_entryLeft u e
  have queue (q : Port) (k : QueueId) : (u.entryLeft e).queue q k = s.queue q k := by
    rw [queue_entryLeft, counted, queue_modPortCount_any]
  have counters : ((u.entryLeft e).port p).counters
      = { (s.port p).counters with txDropped := (s.port p).counters.txDropped + BitVec.ofNat 32 [e].length } := by
    rw [(left.ports p).1, counted, State.modPortCount, State.port_modPort_self]
    rfl
  have holds (b : BufIx) : ((u.entryLeft e).buffer b).holds = (s.buffer b).holds - [e].countP (fun e => e.buffer == some b) := by
    rw [left.holds, counted]
    rfl
  have claims : (u.entryLeft e).wires.claims = s.wires.claims := by rw [claims_entryLeft, counted]; rfl
  have flagged (f : Flag) (set : s.flagged f) : (u.entryLeft e).flagged f := left.flagged f (counted ▸ set)
  unfold State.abortEntry
  rw [← counted]
  split
  · next tag named => exact ⟨queue, counters, holds, by simp [State.addClaim, claims, named], flagged⟩
  · next unnamed => exact ⟨queue, counters, holds, by simp [claims, unnamed], flagged⟩

theorem entriesAborted_foldl (p : Port) (es : List QueueEntry) (s : State) :
    EntriesAborted p es s (es.foldl (State.abortEntry p) s) := by
  induction es generalizing s with
  | nil => exact entriesAborted_nil p s
  | cons e es ih => exact (entriesAborted_abortEntry p s e).append (ih _)

/-- R84: the entries of a queue that leave with an ABORT QUEUE. -/
def State.aborted (s : State) (p : Port) (k : QueueId) : List QueueEntry := (s.queue p k).filter (fun e => !e.inTransmission)

/-- R84: the queue after an ABORT QUEUE. -/
def State.unaborted (s : State) (p : Port) (k : QueueId) : List QueueEntry :=
  ((s.queue p k).filter QueueEntry.inTransmission).map (fun e => { e with noRetry := .abort })

/-- R84: behind the change of the queue itself, ABORT QUEUE lets the waiting entries go. -/
theorem entriesAborted_abortQueue (s : State) (p : Port) (k : QueueId) :
    EntriesAborted p (s.aborted p k) (s.setQueue p k (s.unaborted p k)) (s.abortQueue p k) := entriesAborted_foldl p _ _

theorem queue_abortQueue (s : State) (p q : Port) (k j : QueueId) :
    (s.abortQueue p k).queue q j = if p = q ∧ k = j then s.unaborted p k else s.queue q j := by
  rw [(entriesAborted_abortQueue s p k).queue, State.queue_setQueue]

theorem counters_setQueue (s : State) (p q : Port) (k : QueueId) (es : List QueueEntry) :
    ((s.setQueue p k es).port q).counters = (s.port q).counters := by
  rw [State.setQueue, State.port_modPort]
  split
  · next same =>
    rw [← same]
    cases k <;> rfl
  · rfl

/-! ### The former monitor port (R87) -/

theorem leaveMonitor_stays {former now : Option Port} (stays : former = none ∨ now = former) (s : State) :
    leaveMonitor s former now = s := by
  cases former with
  | none => rfl
  | some m => exact if_pos (stays.resolve_left (by simp))

theorem leaveMonitor_leaves {m : Port} {now : Option Port} (leaves : now ≠ some m) (s : State) :
    leaveMonitor s (some m) now = s.abortQueue m .m := if_neg leaves

theorem flagged_leaveMonitor {s : State} {f : Flag} (set : s.flagged f) (former now : Option Port) :
    (leaveMonitor s former now).flagged f := by
  unfold leaveMonitor
  split
  · exact set
  · split
    · exact set
    · exact (entriesAborted_abortQueue s _ .m).flagged f set

/-! ### The notice attempts of a write (R165, R167) -/

/-- The notice attempts that a write brings are those its judgements leave to be made. -/
theorem takeNewTriggers_of_marksJudged {s u : State} {r : Settings} {new : List Flag} (h : MarksJudged s r new u) :
    takeNewTriggers s u = new.foldl State.noticeStep u := by
  rw [takeNewTriggers, h.wires, List.drop_left]

/-- R100: of a port's queues notices reach G alone. -/
theorem MakesNotices.queue {s t : State} (h : MakesNotices s t) (p : Port) {k : QueueId} (other : k ≠ .g) :
    t.queue p k = s.queue p k := by
  rw [State.queue, h.ports]
  cases k with
  | g => contradiction
  | data d => rfl
  | m => rfl

theorem MakesNotices.portCounters {s t : State} (h : MakesNotices s t) (p : Port) :
    (t.port p).counters = (s.port p).counters := by rw [h.ports]

end Sys2Proof.Machine

open Sys2Proof Sys2Proof.Machine

/-- Settles O48: WRITE TABLE of the GATEWAY record is refused by the first check that fails, or writes it, judges it by its marks,
makes the notice attempts that brings, and empties the former monitor port's M. -/
theorem writesOfGatewaySettings : Obligations.WritesOfGatewaySettings := by
  intro s o e runs pl img gsn strict reserve readRing writeRing reportPort reportSvc noticeEn monitorPort monitorSvc mDepth
    highMark inRange
  refine ⟨opWriteGateway s.dropHead (s.request e), exec_rowOf_of_runs runs o, opWriteGateway_owed _ _, fun bad => ?_,
    fun zero bad => ?_, fun zero good => ?_⟩
  · rw [opWriteGateway_badIndex bad]
    exact ⟨rfl, rfl, rfl⟩
  · rw [opWriteGateway_badValue zero bad]
    exact ⟨rfl, rfl, rfl⟩
  · have len : img.length = 24 := writtenImage_length_of_runs (t := .gateway) runs
    obtain ⟨r, read, image⟩ := settings_ofImage_eq_some len good
    refine ⟨r, read, image, fun narrow => ?_, fun free => ?_⟩
    · rw [opWriteGateway_wrongState (s := s.dropHead) zero read narrow]
      exact ⟨rfl, rfl, rfl⟩
    · obtain ⟨new, judged⟩ := marksJudged_judgeMarks s.dropHead r
      obtain ⟨v, settled⟩ : ∃ v, v = new.foldl State.noticeStep (judgeMarks s.dropHead r) := ⟨_, rfl⟩
      have noticed : MakesNotices (judgeMarks s.dropHead r) v := settled ▸ .foldl makesNotices_noticeStep _ _
      have tables := (keeps_writeSettings s.dropHead r).tables
      have calls := calls_writeSettings s.dropHead r
      have written : writeSettings s.dropHead r = leaveMonitor v s.settings.monitorPort r.monitorPort := by
        rw [settled, ← takeNewTriggers_of_marksJudged judged]
        rfl
      have claims : v.wires.claims = s.wires.claims := by rw [noticed.claims, judged.wires]; rfl
      have queue (p : Port) {k : QueueId} (other : k ≠ .g) : v.queue p k = s.queue p k := by
        rw [noticed.queue p other, queue_of_ports judged.ports]
        rfl
      have aborted (m : Port) : v.aborted m .m = s.aborted m .m := by rw [State.aborted, queue m (by simp)]; rfl
      rw [opWriteGateway_done (s := s.dropHead) zero read free]
      refine ⟨rfl, rfl, tables, calls, ?_, fun f cross => ?_, new, judgeMarks s.dropHead r, v, judged.inOrder, judged.mem,
        judged.tables, judged.flags, judged.armed, judged.wires, judged.ports, judged.pool, judged.calls, judged.timeBase,
        settled ▸ runsDemands_notices new (judged.resetAsserted.trans runs.1), fun stays => ?_, fun m former leaves => ?_⟩
      all_goals rw [show (doneEmpty (writeSettings s.dropHead r)).state = _ from written]
      · cases former : s.settings.monitorPort with
        | none => rw [leaveMonitor_stays (.inl rfl), claims, List.append_nil]
        | some m =>
          dsimp only
          split
          · next stays => rw [leaveMonitor_stays (.inr stays), claims, List.append_nil]
          · next leaves =>
            rw [leaveMonitor_leaves leaves, (entriesAborted_abortQueue v m .m).claims, aborted, ← claims]
            rfl
      · exact flagged_leaveMonitor (noticed.flagged f ((judged.flags f).mpr (.inr cross))) _ _
      · exact leaveMonitor_stays stays v
      · have gone := entriesAborted_abortQueue v m .m
        rw [former, leaveMonitor_leaves leaves]
        refine ⟨?_, fun d => ?_, ?_, ?_, fun b => ?_⟩
        · rw [queue_abortQueue, if_pos ⟨rfl, rfl⟩, State.unaborted, queue m (by simp)]
        · rw [queue_abortQueue, if_neg (by simp), queue m (by simp)]
        · rw [queue_abortQueue, if_neg (by simp)]
        · rw [gone.counters, counters_setQueue, noticed.portCounters, port_of_ports judged.ports, aborted]
          rfl
        · rw [gone.holds, aborted]
          rfl

end

section
/-! The passing of a microsecond (R171) and the asserted reset pin (R173), and the statement about a step on an empty queue. -/

namespace Sys2Proof.Machine
open Sys2Proof

/-- R173: while the reset pin is asserted, only the two commands that move the pin are taken. -/
theorem exec_of_resetAsserted {s : State} (asserted : s.resetAsserted = true) {c : Instr} (notAssert : c ≠ .resetAssert)
    (notRelease : ∀ bringup stn, c ≠ .resetRelease bringup stn) : exec c s = .next s := by
  cases c with
  | resetAssert => contradiction
  | resetRelease bringup stn => exact absurd rfl (notRelease bringup stn)
  | _ => exact if_pos asserted

theorem step_of_nil {s : State} (empty : s.pending = []) : step s = .next s.tick := by
  rw [step, empty]

theorem tick_of_resetAsserted {s : State} (asserted : s.resetAsserted = true) : s.tick = s := if_pos asserted

theorem tick_of_notReset {s : State} (run : s.resetAsserted = false) : s.tick = s.elapse 1 := if_neg (by simp [run])

/-- R171: a running interval timer runs on. -/
theorem intervals_elapse (s : State) (d : Nat) (p : Port) (q : DataQ) :
    look ((s.elapse d).port p).intervals q = (look (s.port p).intervals q).map (· - d) := by
  rw [State.port_elapse]
  exact look_map _ _ _

/-- R119, R171: a running ack window runs on. -/
theorem attempt_elapse_window {s : State} {p : Port} {a : Attempt} {left : Nat} (trying : (s.port p).attempt = some a)
    (window : a.phase = .window left) (d : Nat) :
    ((s.elapse d).port p).attempt = some { a with phase := .window (left - d) } := by
  rw [State.port_elapse]
  show (s.port p).attempt.map (attemptAfter d) = _
  rw [trying, Option.map_some, attemptAfter, window]

end Sys2Proof.Machine

open Sys2Proof Sys2Proof.Machine

/-- Settles O2: the step is a microsecond that passes, read off port by port; under reset it is none, and no command is taken. -/
theorem emptyQueueStepPassesTime : Obligations.EmptyQueueStepPassesTime := by
  refine ⟨fun s empty run => ?_, fun s asserted => ⟨fun empty => ?_, fun c notAssert notRelease => ?_⟩⟩
  · refine ⟨s.elapse 1, by rw [step_of_nil empty, tick_of_notReset run], rfl, empty, rfl, rfl, rfl, rfl, rfl, rfl, fun p => ?_⟩
    refine ⟨?_, ?_, ?_, ?_, fun q => queue_elapse s 1 p q, ?_, ?_, ownHold_elapse s 1 p, ?_, intervals_elapse s 1 p,
      fun a left trying window => attempt_elapse_window trying window 1⟩
    all_goals rw [State.port_elapse]; rfl
  · rw [step_of_nil empty, tick_of_resetAsserted asserted]
  · exact exec_of_resetAsserted asserted notAssert notRelease
end

section
/-! Notice triggers (R167): every command that makes no notice attempt and reads no flag raises flags, and the triggers that wait
behind it are those that waited before and those of the enabled flags it has set from clear. -/

namespace Sys2Proof.Machine
open Sys2Proof

/-! ### The raising of flags one after the other (R163, R167) -/

/-- s and t have the same event set, the same waiting triggers and the same tables, of which NOTICE_EN is one setting. -/
structure FlagsAlike (s t : State) : Prop where
  tables : t.tables = s.tables
  flags : t.events.flags = s.events.flags
  triggers : t.wires.triggers = s.wires.triggers

namespace FlagsAlike
variable {s t u : State}

theorem trans (h : FlagsAlike s t) (k : FlagsAlike t u) : FlagsAlike s u :=
  ⟨k.tables.trans h.tables, k.flags.trans h.flags, k.triggers.trans h.triggers⟩

theorem flagSet (h : FlagsAlike s t) (f : Flag) : t.flagSet f = s.flagSet f := by rw [State.flagSet, h.flags]; rfl

theorem flagEnabled (h : FlagsAlike s t) (f : Flag) : t.flagEnabled f = s.flagEnabled f := by
  rw [State.flagEnabled, State.settings_of_tables h.tables]
  rfl

theorem raise (h : FlagsAlike s t) (f : Flag) : FlagsAlike (s.raise f) (t.raise f) where
  tables := by rw [(onlyFlags_raise t f).tables, (onlyFlags_raise s f).tables, h.tables]
  flags := by rw [events_raise, events_raise, State.setFlag_events, State.setFlag_events, h.flags]
  triggers := by rw [triggers_raise, triggers_raise, h.triggers, h.flagSet, h.flagEnabled]

theorem foldl_raise (h : FlagsAlike s t) (fs : List Flag) : FlagsAlike (fs.foldl State.raise s) (fs.foldl State.raise t) := by
  induction fs generalizing s t with
  | nil => exact h
  | cons f fs ih => exact ih (h.raise f)

end FlagsAlike

/-- From s to t a list of flags was raised; what else changed is neither the event set, nor a waiting trigger, nor a table. -/
def RaisesFlags (s t : State) : Prop := ∃ fs : List Flag, FlagsAlike (fs.foldl State.raise s) t

theorem flagEnabled_raise (s : State) (f g : Flag) : (s.raise f).flagEnabled g = s.flagEnabled g := by
  rw [State.flagEnabled, State.settings_of_tables (onlyFlags_raise s f).tables]
  rfl

theorem flagSet_foldl_raise {s : State} {f : Flag} (set : s.flagSet f = true) (fs : List Flag) :
    (fs.foldl State.raise s).flagSet f = true := by
  induction fs generalizing s with
  | nil => exact set
  | cons g fs ih => exact ih ((onlyFlags_raise s g).flagged f set)

/-- R167: the raising of flags leaves the notice attempts of those that are enabled and were clear. -/
theorem mem_triggers_foldl_raise (fs : List Flag) (s : State) (f : Flag) : f ∈ (fs.foldl State.raise s).wires.triggers ↔
    f ∈ s.wires.triggers ∨ (s.flagEnabled f = true ∧ s.flagSet f = false ∧ (fs.foldl State.raise s).flagSet f = true) := by
  induction fs generalizing s with
  | nil => cases set : s.flagSet f <;> simp [set]
  | cons g fs ih =>
    have first : f ∈ (s.raise g).wires.triggers ↔
        f ∈ s.wires.triggers ∨ (f = g ∧ s.flagEnabled g = true ∧ s.flagSet g = false) := by
      rw [triggers_raise, List.mem_append]
      by_cases fires : (s.flagEnabled g && !s.flagSet g) = true
      · have trigger : s.flagEnabled g = true ∧ s.flagSet g = false := by simpa using fires
        simp [trigger]
      · have none : ¬ (s.flagEnabled g = true ∧ s.flagSet g = false) := by simpa using fires
        simp [fires, none]
    rw [List.foldl_cons, ih, first, flagEnabled_raise]
    by_cases same : f = g
    · subst same
      have set := flagged_raise s f
      simp [show (s.raise f).flagSet f = true from set, flagSet_foldl_raise set fs]
    · have still : (s.raise g).flagSet f = s.flagSet f := by rw [flagSet_raise]; simp [flagBit_inj, same]
      simp [still, same]

namespace RaisesFlags
variable {s t u : State}

theorem flagged (h : RaisesFlags s t) (f : Flag) (set : s.flagSet f = true) : t.flagSet f = true := by
  obtain ⟨fs, alike⟩ := h
  exact (alike.flagSet f).trans (flagSet_foldl_raise set fs)

theorem mem_triggers (h : RaisesFlags s t) (f : Flag) : f ∈ t.wires.triggers ↔
    f ∈ s.wires.triggers ∨ (s.flagEnabled f = true ∧ s.flagSet f = false ∧ t.flagSet f = true) := by
  obtain ⟨fs, alike⟩ := h
  rw [alike.triggers, alike.flagSet, mem_triggers_foldl_raise]

/-- A change that raises no flag. -/
theorem ofSame (tables : t.tables = s.tables) (flags : t.events.flags = s.events.flags)
    (triggers : t.wires.triggers = s.wires.triggers) : RaisesFlags s t := ⟨[], tables, flags, triggers⟩

theorem refl (s : State) : RaisesFlags s s := ofSame rfl rfl rfl

theorem trans (h : RaisesFlags s t) (k : RaisesFlags t u) : RaisesFlags s u := by
  obtain ⟨fs, first⟩ := h
  obtain ⟨gs, second⟩ := k
  refine ⟨fs ++ gs, ?_⟩
  rw [List.foldl_append]
  exact (first.foldl_raise gs).trans second

/-- `trans` with the later change named first. -/
theorem after (k : RaisesFlags t u) (h : RaisesFlags s t) : RaisesFlags s u := h.trans k

theorem ite {c : Prop} [Decidable c] (h : RaisesFlags s t) (k : RaisesFlags s u) : RaisesFlags s (if c then t else u) := by
  split
  · exact h
  · exact k

theorem foldl {α : Type} {f : State → α → State} (h : ∀ s a, RaisesFlags s (f s a)) (l : List α) (s : State) :
    RaisesFlags s (l.foldl f s) := by
  induction l generalizing s with
  | nil => exact refl s
  | cons a l ih => exact (h s a).trans (ih (f s a))

/-- A change of what a port holds of its own. -/
theorem modPort (s : State) (p : Port) (f : PortSt → PortSt) : RaisesFlags s (s.modPort p f) := ofSame rfl rfl rfl

end RaisesFlags

theorem raisesFlags_raise (s : State) (f : Flag) : RaisesFlags s (s.raise f) := ⟨[f], rfl, rfl, rfl⟩

theorem raisesFlags_judge (s : State) (l : Level) (was : Bool) : RaisesFlags s (s.judge l was) := by
  unfold State.judge
  exact .ite (.refl s) (.ite (raisesFlags_raise s _) (raisesFlags_raise s _))

theorem raisesFlags_judgePort (s : State) (p : Port) (before : State) : RaisesFlags s (s.judgePort p before) :=
  (((raisesFlags_judge s _ _).trans (raisesFlags_judge _ _ _)).trans (raisesFlags_judge _ _ _)).trans (raisesFlags_judge _ _ _)

theorem raisesFlags_modCount (s : State) (f : GatewayCounters → GatewayCounters) : RaisesFlags s (s.modCount f) :=
  .ofSame rfl rfl rfl

/-! ### Buffers, own HOLD and queues (R74, R94, R103, R105) -/

theorem raisesFlags_judgeHold (s : State) (p : Port) : RaisesFlags s (s.judgeHold p) := by
  have placed (c : Control) (f : PortSt → PortSt) : RaisesFlags s ((s.pushControl p c).modPort p f) := .ofSame rfl rfl rfl
  have begun : RaisesFlags s (s.startHold p) := (placed _ _).trans (raisesFlags_judge _ _ _)
  have ended : RaisesFlags s (s.endHold p) := (placed _ _).trans (raisesFlags_judge _ _ _)
  unfold State.judgeHold
  refine .ite ?_ (.refl s)
  split
  · exact .ite begun (.refl s)
  · exact .ite ended (.refl s)

theorem raisesFlags_changeBuffer (s : State) (b : BufIx) (f : Buffer → Buffer) : RaisesFlags s (s.changeBuffer b f) :=
  (raisesFlags_judge _ _ _).after (.ofSame rfl rfl rfl)

theorem raisesFlags_release (s : State) (b : BufIx) : RaisesFlags s (s.release b) := by
  unfold State.release
  refine .ite (.refl s) (.ite ?_ (.ofSame rfl rfl rfl))
  split
  · exact (raisesFlags_changeBuffer s b _).trans (raisesFlags_judgeHold _ _)
  · exact raisesFlags_changeBuffer s b _

theorem raisesFlags_deliver {s t : State} {p : Port} {k : QueueId} {e : QueueEntry} (delivered : s.deliver p k e = some t) :
    RaisesFlags s t := by
  obtain ⟨-, rfl⟩ := deliver_eq_some.mp delivered
  exact .ofSame (keeps_holdOpt _ _).tables (congrArg Events.flags (events_holdOpt _ _))
    (congrArg Wires.triggers (wires_holdOpt _ _))

theorem raisesFlags_entryLeft (s : State) (e : QueueEntry) : RaisesFlags s (s.entryLeft e) := by
  have reported : RaisesFlags s s.reportRestart := by
    unfold State.reportRestart
    split <;> exact .ofSame rfl rfl rfl
  have released (t : State) : RaisesFlags t (t.releaseOpt e.buffer) := by
    cases e.buffer with
    | none => exact .refl t
    | some b => exact raisesFlags_release t b
  exact (released _).after (.ite reported (.refl s))

theorem raisesFlags_offerReply (s : State) (p : Port) (e : QueueEntry) : RaisesFlags s (s.offerReply p e) := by
  unfold State.offerReply
  split
  · next delivered => exact raisesFlags_deliver delivered
  · exact raisesFlags_raise s _

/-! ### The call table (R51, R52, R60, R61, R62, R64, R85) -/

theorem raisesFlags_freeRecord (s : State) (i : CallIx) : RaisesFlags s (s.freeRecord i) := by
  unfold State.freeRecord
  exact .ite ((raisesFlags_judge _ _ _).after (.ofSame rfl rfl rfl)) (.refl s)

theorem raisesFlags_freed_answered (s : State) (i : CallIx) (r : CallRecord) (st : Status) :
    RaisesFlags s ((s.freeRecord i).sendCallReply r st) := (raisesFlags_freeRecord s i).trans (raisesFlags_offerReply _ _ _)

theorem raisesFlags_withdrawn_freed (s : State) (i : CallIx) : RaisesFlags s ((s.withdrawIfQueued i).freeRecord i) :=
  (raisesFlags_freeRecord _ i).after (.ite (.ofSame rfl rfl rfl) (.refl s))

theorem raisesFlags_portDownRecord (p : Port) (s : State) (i : CallIx) : RaisesFlags s (s.portDownRecord p i) := by
  unfold State.portDownRecord
  exact .ite (raisesFlags_freed_answered s i _ _)
    (.ite (raisesFlags_withdrawn_freed s i) (.ite (raisesFlags_freeRecord s i) (.refl s)))

theorem raisesFlags_takeClaim (s : State) (c : Claim) : RaisesFlags s (s.takeClaim c) := by
  cases c with
  | delivered p tag =>
    show RaisesFlags s (s.takeDelivered tag)
    unfold State.takeDelivered
    split
    · exact .refl s
    · exact .ite (.ofSame rfl rfl rfl) (.refl s)
  | undeliverable p tag abort =>
    show RaisesFlags s (s.takeUndeliverable tag abort)
    unfold State.takeUndeliverable
    split
    · exact .refl s
    · exact .ite (.ite (raisesFlags_freed_answered s _ _ _)
        ((raisesFlags_freed_answered s _ _ _).trans (raisesFlags_raise _ _))) (.refl s)
  | targetPortDown p tag =>
    show RaisesFlags s (s.takeTargetPortDown p tag)
    unfold State.takeTargetPortDown
    split
    · exact .refl s
    · exact raisesFlags_portDownRecord p s _
  | portDown p => exact .foldl (raisesFlags_portDownRecord p) _ s

theorem raisesFlags_takeOldest (s : State) (sort : Claim → Bool) : RaisesFlags s (s.takeOldest sort) := by
  unfold State.takeOldest
  split
  · exact .refl s
  · exact (raisesFlags_takeClaim _ _).after (.ofSame rfl rfl rfl)

theorem raisesFlags_withdrawStep (s : State) (p : Port) (tag : Tag) : RaisesFlags s (s.withdrawStep p tag) := by
  have taken (s : State) (q : DataQ) : RaisesFlags s (s.withdrawFrom p tag q) :=
    (RaisesFlags.foldl raisesFlags_entryLeft _ _).after (.modPort s p _)
  unfold State.withdrawStep
  exact .ite ((RaisesFlags.foldl taken _ _).after (.ofSame rfl rfl rfl)) (.refl s)

theorem raisesFlags_callExpiry (s : State) (i : CallIx) : RaisesFlags s (s.callExpiry i) := by
  have expired (t : State) : RaisesFlags t (t.expire i) :=
    (((raisesFlags_withdrawn_freed t i).trans (raisesFlags_offerReply _ _ _)).trans (raisesFlags_raise _ _)).trans
      (raisesFlags_modCount _ _)
  unfold State.callExpiry
  exact .ite ((expired _).after (.ofSame rfl rfl rfl)) (.refl s)

/-! ### Port states, the error score and recovery (R120 to R139) -/

theorem raisesFlags_settleDemands (s : State) (p : Port) : RaisesFlags s (s.settleDemands p) :=
  (RaisesFlags.foldl raisesFlags_takeClaim _ _).after (.ofSame rfl rfl rfl)

theorem raisesFlags_judgedPort (s : State) (p : Port) (f : PortSt → PortSt) : RaisesFlags s ((s.modPort p f).judgePort p s) :=
  (raisesFlags_judgePort _ p s).after (.modPort s p f)

theorem raisesFlags_leaveService (s : State) (p : Port) (target : PortState) : RaisesFlags s (s.leaveService p target) := by
  have claimed (t : State) (c : Claim) : RaisesFlags t (t.addClaim c) := .ofSame rfl rfl rfl
  have flushed (t : State) (e : QueueEntry) : RaisesFlags t (t.flushEntry p e) := by
    unfold State.flushEntry
    split
    · exact (raisesFlags_entryLeft t e).trans (claimed _ _)
    · exact raisesFlags_entryLeft t e
  have dropped (t : State) : RaisesFlags t (t.dropMgmt p) :=
    (RaisesFlags.foldl (fun s (e : MgmtEntry) => raisesFlags_release s e.buffer) _ _).after (.ofSame rfl rfl rfl)
  exact ((((raisesFlags_settleDemands s p).trans (raisesFlags_judgedPort _ p _)).trans (.foldl flushed _ _)).trans
    (claimed _ _)).trans (dropped _)

theorem raisesFlags_enterService (s : State) (p : Port) (target : PortState) : RaisesFlags s (s.enterService p target) :=
  ((raisesFlags_settleDemands s p).trans (raisesFlags_judgedPort _ p _)).trans (raisesFlags_judgeHold _ p)

theorem raisesFlags_raiseScore (s : State) (p : Port) (n : Nat) : RaisesFlags s (s.raiseScore p n) := by
  unfold State.raiseScore
  exact .ite (.ite (raisesFlags_leaveService s p _) ((raisesFlags_judge _ _ _).after (.modPort s p _))) (.refl s)

theorem raisesFlags_lowerScore (s : State) (p : Port) : RaisesFlags s (s.lowerScore p) := by
  unfold State.lowerScore
  exact .ite ((raisesFlags_judge _ _ _).after (.modPort s p _)) (.refl s)

theorem raisesFlags_recoveryRun (s : State) (p : Port) : RaisesFlags s (s.recoveryRun p) := by
  unfold State.recoveryRun
  refine .ite (RaisesFlags.after (.ite ?_ (.refl _)) (.modPort s p _)) (.refl s)
  split
  · exact (raisesFlags_enterService _ p _).trans (raisesFlags_raise _ _)
  · exact .refl _

theorem raisesFlags_clearTally (s : State) (p : Port) : RaisesFlags s (s.clearTally p) := .ite (.modPort s p _) (.refl s)

/-! ### The line (R111, R112, R115, R116) -/

theorem raisesFlags_lineIdleRun (s : State) (p : Port) : RaisesFlags s (s.lineIdleRun p) :=
  (raisesFlags_recoveryRun _ p).after ((raisesFlags_judge _ _ _).after (.ofSame rfl rfl rfl))

theorem raisesFlags_lineCharacter (s : State) (p : Port) (idle : Bool) : RaisesFlags s (s.lineCharacter p idle) :=
  .ite (.refl s) (.ite (raisesFlags_lineIdleRun s p) (.modPort s p _))

theorem raisesFlags_badFrame (s : State) (p : Port) : RaisesFlags s (s.badFrame p) :=
  (raisesFlags_raiseScore _ p _).after (.ofSame rfl rfl rfl)

theorem raisesFlags_breakReception (s : State) (p : Port) : RaisesFlags s (s.breakReception p) :=
  .ite ((raisesFlags_badFrame _ p).after (.modPort s p _)) (.modPort s p _)

theorem raisesFlags_receiveCharacter (s : State) (p : Port) (c : Character) : RaisesFlags s (s.receiveCharacter p c) := by
  cases c with
  | start => exact (raisesFlags_breakReception s p).trans (.ofSame rfl rfl rfl)
  | data b =>
    unfold State.receiveCharacter
    dsimp only
    split
    · exact .modPort s p _
    · exact .refl s
    · exact .refl s
  | endChar => exact .refl s
  | idleMark | control => exact raisesFlags_breakReception s p

theorem raisesFlags_admitFrame (s : State) (p : Port) (b : BufIx) (image payload : List Byte) (m : Bool) :
    RaisesFlags s (s.admitFrame p b image payload m) := by
  have queued (t : State) : RaisesFlags t (t.queueAdmitted p b m) := .ite (.ofSame rfl rfl rfl) (.modPort t p _)
  exact (((((raisesFlags_changeBuffer s b _).trans (.modPort _ p _)).trans (.modPort _ p _)).trans
    (raisesFlags_lowerScore _ p)).trans (queued _)).trans (raisesFlags_judgeHold _ p)

theorem raisesFlags_admission (s : State) (p : Port) (image payload : List Byte) :
    RaisesFlags s (s.admission p image payload) := by
  have busy : RaisesFlags s (s.nakBusy p) := .ofSame rfl rfl rfl
  have full : RaisesFlags s (s.nakFull p) := .ofSame rfl rfl rfl
  unfold State.admission
  refine .ite busy (.ite busy (.ite busy (.ite (full.trans (raisesFlags_raise _ _)) (.ite full ?_))))
  split
  · exact .refl s
  · exact raisesFlags_admitFrame s p _ _ _ _

/-- The line monitor's part in an arrival that ends the FRAME in reception. -/
theorem raisesFlags_lineCharacter_ended (s : State) (p : Port) :
    RaisesFlags s ((s.lineCharacter p false).setReception p .none) := (raisesFlags_lineCharacter s p false).trans (.modPort _ p _)

theorem raisesFlags_arriveFrame (s : State) (p : Port) (chars : List Byte) : RaisesFlags s (s.arriveFrame p chars) := by
  have ended := raisesFlags_lineCharacter_ended s p
  exact .ite (ended.trans (.ite (raisesFlags_admission _ p _ _) (raisesFlags_badFrame _ p))) ended

theorem raisesFlags_arriveCharacter (s : State) (p : Port) (c : Character) : RaisesFlags s (s.arriveCharacter p c) :=
  .ite (.refl s) (.ite (raisesFlags_arriveFrame s p [])
    ((raisesFlags_receiveCharacter s p c).trans (raisesFlags_lineCharacter _ p _)))

theorem raisesFlags_arriveUnrecognised (s : State) (p : Port) : RaisesFlags s (s.arriveUnrecognised p) := by
  have unrecognised (t : State) : RaisesFlags t (t.lineUnrecognised p) :=
    .ite (.refl t) ((raisesFlags_clearTally _ p).after (.modPort t p _))
  exact .ite (.refl s) ((raisesFlags_breakReception s p).trans (unrecognised _))

theorem raisesFlags_arriveLoss (s : State) (p : Port) : RaisesFlags s (s.arriveLoss p) := by
  have lost (t : State) : RaisesFlags t (t.lineLoss p) :=
    (raisesFlags_clearTally _ p).after ((raisesFlags_judge _ _ _).after (.modPort t p _))
  unfold State.arriveLoss
  refine .ite (.refl s) ?_
  split
  · exact .refl s
  · next left _ =>
    have passed : RaisesFlags s (s.elapse left) := .ofSame rfl rfl rfl
    exact (passed.trans (raisesFlags_breakReception _ p)).trans (lost _)

theorem raisesFlags_arriveIdleRun (s : State) (p : Port) : RaisesFlags s (s.arriveIdleRun p) :=
  .ite (.refl s) ((raisesFlags_breakReception s p).trans (raisesFlags_lineIdleRun _ p))

theorem raisesFlags_arriveBroken (s : State) (p : Port) (i : Interruption) : RaisesFlags s (s.arriveBroken p i) := by
  have ended := raisesFlags_lineCharacter_ended s p
  have broken (bad : Bool) : RaisesFlags s (if bad then ((s.lineCharacter p false).setReception p .none).badFrame p
      else (s.lineCharacter p false).setReception p .none) := .ite (ended.trans (raisesFlags_badFrame _ p)) ended
  cases i with
  | character c => exact (broken _).trans (raisesFlags_arriveCharacter _ p c)
  | unrecognised => exact (broken _).trans (raisesFlags_arriveUnrecognised _ p)
  | lossOfSignal => exact (broken _).trans (raisesFlags_arriveLoss _ p)

/-! ### The transmitter and the scheduler (R75 to R83, R86, R104, R108, R119) -/

theorem raisesFlags_attemptStart (s : State) (p : Port) : RaisesFlags s (s.attemptStart p) := by
  have started (q : QueueId) : RaisesFlags s (s.startAttempt p q) := by
    unfold State.startAttempt
    split <;> exact .ofSame rfl rfl rfl
  unfold State.attemptStart
  refine .ite ?_ (.refl s)
  split
  · exact .refl s
  · exact started _

theorem raisesFlags_frameSent (s : State) (p : Port) : RaisesFlags s (s.frameSent p) := by
  unfold State.frameSent
  refine .ite (.refl s) ?_
  split
  · exact .refl s
  · split <;> exact .ofSame rfl rfl rfl

theorem raisesFlags_symbolAfter (s : State) (p : Port) : RaisesFlags s (s.symbolAfter p) := by
  have chosen : RaisesFlags s (s.nextSymbol p) := by
    unfold State.nextSymbol
    split
    · exact .ofSame rfl rfl rfl
    · split
      · exact .modPort s p _
      · exact .ite (.ofSame rfl rfl rfl) (.modPort s p _)
  unfold State.symbolAfter
  split
  · exact .modPort s p _
  · exact .modPort s p _
  · exact .modPort s p _
  · exact chosen
  · exact chosen

theorem raisesFlags_symbolEnd (s : State) (p : Port) : RaisesFlags s (s.symbolEnd p) :=
  .ite (.ite (.refl s) ((raisesFlags_frameSent s p).trans (raisesFlags_symbolAfter _ p))) (raisesFlags_symbolAfter s p)

theorem raisesFlags_claimFor (s : State) (e : QueueEntry) (c : Tag → Claim) : RaisesFlags s (s.claimFor e c) := by
  unfold State.claimFor
  split <;> exact .ofSame rfl rfl rfl

/-- R80, R82: the head of a queue leaves it, which is counted and told. -/
theorem raisesFlags_headLeft (s : State) (p : Port) (k : QueueId) (e : QueueEntry) (es : List QueueEntry)
    (count : PortCounters → PortCounters) (c : Tag → Claim) :
    RaisesFlags s ((((s.setQueue p k es).entryLeft e).modPortCount p count).claimFor e c) :=
  (((raisesFlags_entryLeft _ e).after (.modPort s p _)).trans (.modPort _ p _)).trans (raisesFlags_claimFor _ e c)

theorem raisesFlags_completeAck (s : State) (p : Port) : RaisesFlags s (s.completeAck p) := by
  have timed (t : State) (k : QueueId) : RaisesFlags t (t.startInterval p k) := by
    cases k <;> exact .ofSame rfl rfl rfl
  unfold State.completeAck
  split
  · exact .refl s
  · split
    · exact .modPort s p _
    · exact (((raisesFlags_headLeft _ p _ _ _ _ _).after (.modPort s p _)).trans (timed _ _)).trans (raisesFlags_lowerScore _ p)

theorem raisesFlags_failAttempt (s : State) (p : Port) (raises : Bool) : RaisesFlags s (s.failAttempt p raises) := by
  have failed : RaisesFlags s (s.completeFailure p) := by
    unfold State.completeFailure
    split
    · exact .refl s
    · split
      · exact .modPort s p _
      · exact .ite ((raisesFlags_headLeft _ p _ _ _ _ _).after (.ofSame rfl rfl rfl)) (.ofSame rfl rfl rfl)
  exact .ite (failed.trans (raisesFlags_raiseScore _ p _)) failed

theorem raisesFlags_ackReceived (s : State) (p : Port) : RaisesFlags s (s.ackReceived p) :=
  (raisesFlags_arriveCharacter s p .control).trans (.ite (raisesFlags_completeAck _ p) (.refl _))

theorem raisesFlags_nakReceived (s : State) (p : Port) (r : NakReason) : RaisesFlags s (s.nakReceived p r) :=
  (raisesFlags_arriveCharacter s p .control).trans (.ite (raisesFlags_failAttempt _ p _) (.refl _))

theorem raisesFlags_strayAnswer (s : State) (p : Port) : RaisesFlags s (s.strayAnswer p) :=
  .ite (.refl s) (raisesFlags_arriveCharacter s p .control)

theorem raisesFlags_holdReceived (s : State) (p : Port) (d : Byte) : RaisesFlags s (s.holdReceived p d) :=
  (raisesFlags_arriveCharacter s p .control).trans (.ite (.modPort _ p _) (.refl _))

theorem raisesFlags_ackWindowExpiry (s : State) (p : Port) : RaisesFlags s (s.ackWindowExpiry p) := by
  unfold State.ackWindowExpiry
  split
  · exact .refl s
  · split
    · exact (raisesFlags_failAttempt _ p _).after (.ofSame rfl rfl rfl)
    · exact .refl s
    · exact .refl s

theorem raisesFlags_partnerHoldExpiry (s : State) (p : Port) : RaisesFlags s (s.partnerHoldExpiry p) := by
  unfold State.partnerHoldExpiry
  split <;> exact .ofSame rfl rfl rfl

theorem raisesFlags_intervalExpiry (s : State) (p : Port) (q : DataQ) : RaisesFlags s (s.intervalExpiry p q) := by
  unfold State.intervalExpiry
  split <;> exact .ofSame rfl rfl rfl

theorem raisesFlags_holdResendExpiry (s : State) (p : Port) : RaisesFlags s (s.holdResendExpiry p) := by
  unfold State.holdResendExpiry
  split <;> exact .ofSame rfl rfl rfl

/-! ### Decisions (R7, R18, R40, R43, R54) -/

theorem raisesFlags_forwarded (s : State) : RaisesFlags s s.forwarded := raisesFlags_modCount s _

theorem raisesFlags_discarded (s : State) : RaisesFlags s s.discarded := raisesFlags_modCount s _

theorem raisesFlags_discardedWith (s : State) (e : EventFlag) : RaisesFlags s (s.discardedWith e) :=
  (raisesFlags_raise s _).trans (raisesFlags_discarded _)

theorem raisesFlags_refuse (s : State) (p : Port) (h : Header) (st : Status) (d : Half) : RaisesFlags s (s.refuse p h st d) := by
  have flagged (t : State) (e : Option EventFlag) : RaisesFlags t (t.raiseOpt e) := by
    cases e with
    | none => exact .refl t
    | some e => exact raisesFlags_raise t _
  have told : RaisesFlags s (s.refusalTold p h st d) := (flagged _ _).after (.ofSame rfl rfl rfl)
  exact .ite (told.trans (raisesFlags_offerReply _ p _)) told

theorem raisesFlags_forwardRequest (s : State) (p : Port) (b : BufIx) (h : Header) (r : RuleIx) (f : Forwarding) :
    RaisesFlags s (s.forwardRequest p b h r f).1 := by
  have opened (i : CallIx) (r : CallRecord) : RaisesFlags s (s.openRecord i r) :=
    (raisesFlags_judge _ _ _).after (.ofSame rfl rfl rfl)
  unfold State.forwardRequest
  split
  · exact .refl s
  · dsimp only
    split
    · next delivered => exact ((opened _ _).trans (raisesFlags_deliver delivered)).trans (raisesFlags_forwarded _)
    · exact (opened _ _).trans (raisesFlags_freed_answered _ _ _ _)

theorem raisesFlags_forwardNotice (s : State) (b : BufIx) (h : Header) (r : RuleIx) (f : Forwarding) :
    RaisesFlags s (s.forwardNotice b h r f).1 := by
  unfold State.forwardNotice
  split
  · next delivered => exact (raisesFlags_deliver delivered).trans (raisesFlags_forwarded _)
  · exact raisesFlags_discarded s

theorem raisesFlags_matchReply (s : State) (p : Port) (b : BufIx) (h : Header) (r : RuleIx) (len : Nat) :
    RaisesFlags s (s.matchReply p b h r len).1 := by
  have answered (t : State) (c : CallRecord) : RaisesFlags t (t.deliverReply b h r c len).1 := by
    unfold State.deliverReply
    split
    · next delivered => exact (raisesFlags_deliver delivered).trans (raisesFlags_forwarded _)
    · exact raisesFlags_discardedWith t _
  unfold State.matchReply
  split
  · exact raisesFlags_discardedWith s _
  · split
    · exact (raisesFlags_withdrawn_freed s _).trans (answered _ _)
    · exact raisesFlags_discardedWith s _

theorem raisesFlags_mirrorCopy (s : State) (p : Port) (b : BufIx) (r : RuleIx) (o : Byte) :
    RaisesFlags s (s.mirrorCopy p b r o) := by
  rcases mirrorCopy_cases s p b r o with same | ⟨m, copied⟩ | lost
  · rw [same]
    exact .refl s
  · rw [copied]
    exact .ofSame rfl rfl rfl
  · rw [lost]
    exact (raisesFlags_raise s _).trans (raisesFlags_modCount _ _)

theorem raisesFlags_applySettled (s : State) (p : Port) (b : BufIx) (h : Header) (x : Settled) :
    RaisesFlags s (s.applySettled p b h x) := by
  cases x with
  | unscanned => exact raisesFlags_discarded s
  | noRule => exact raisesFlags_discardedWith s _
  | discard r => exact (raisesFlags_discarded s).trans (raisesFlags_mirrorCopy _ _ _ _ _)
  | shortReply r => exact (raisesFlags_discardedWith s _).trans (raisesFlags_mirrorCopy _ _ _ _ _)
  | refusal r st d g => exact (raisesFlags_refuse s p h st d).trans (raisesFlags_mirrorCopy _ _ _ _ _)
  | matching r len => exact (raisesFlags_matchReply s p b h r len).trans (raisesFlags_mirrorCopy _ _ _ _ _)
  | forward r f =>
    exact .ite ((raisesFlags_forwardRequest s p b h r f).trans (raisesFlags_mirrorCopy _ _ _ _ _))
      ((raisesFlags_forwardNotice s b h r f).trans (raisesFlags_mirrorCopy _ _ _ _ _))

theorem raisesFlags_decisionStep (s : State) (p : Port) : RaisesFlags s (s.decisionStep p) := by
  unfold State.decisionStep
  split
  · exact .refl s
  · exact (raisesFlags_release _ _).after ((raisesFlags_applySettled _ p _ _ _).after (.modPort s p _))

/-! ### The commands that leave triggers (R167) -/

theorem raisesFlags_running {f : State → State} (raises : ∀ s, RaisesFlags s (f s)) (s : State) :
    ∃ t, running f s = .next t ∧ RaisesFlags s t := by
  unfold running
  split
  · exact ⟨s, rfl, .refl s⟩
  · exact ⟨f s, rfl, raises s⟩

theorem raisesFlags_exec {c : Instr} (leaves : leavesTriggers c = true) (s : State) :
    ∃ t, exec c s = .next t ∧ RaisesFlags s t := by
  cases c with
  | frameReceived p chars => exact raisesFlags_running (raisesFlags_arriveFrame · p chars) s
  | brokenFrame p i => exact raisesFlags_running (fun s => .ite (raisesFlags_arriveBroken s p i) (.refl s)) s
  | ackReceived p => exact raisesFlags_running (raisesFlags_ackReceived · p) s
  | nakReceived p r => exact raisesFlags_running (raisesFlags_nakReceived · p r) s
  | ackWindowExpiry p => exact raisesFlags_running (raisesFlags_ackWindowExpiry · p) s
  | strayAnswer p a => exact raisesFlags_running (raisesFlags_strayAnswer · p) s
  | holdReceived p d => exact raisesFlags_running (raisesFlags_holdReceived · p d) s
  | partnerHoldExpiry p => exact raisesFlags_running (raisesFlags_partnerHoldExpiry · p) s
  | idleRun p => exact raisesFlags_running (raisesFlags_arriveIdleRun · p) s
  | lossOfSignal p => exact raisesFlags_running (raisesFlags_arriveLoss · p) s
  | unrecognisedCharacter p => exact raisesFlags_running (raisesFlags_arriveUnrecognised · p) s
  | characterRecognised p c => exact raisesFlags_running (raisesFlags_arriveCharacter · p c) s
  | transmitterSymbolEnd p => exact raisesFlags_running (raisesFlags_symbolEnd · p) s
  | frameSent p => exact raisesFlags_running (raisesFlags_frameSent · p) s
  | attemptStart p => exact raisesFlags_running (raisesFlags_attemptStart · p) s
  | intervalTimerExpiry p q => exact raisesFlags_running (raisesFlags_intervalExpiry · p q) s
  | holdResendExpiry p => exact raisesFlags_running (raisesFlags_holdResendExpiry · p) s
  | decision p => exact raisesFlags_running (raisesFlags_decisionStep · p) s
  | deliveredClaim p | undeliverableClaim p | targetPortDownClaim p | portDownClaim p =>
    exact raisesFlags_running (raisesFlags_takeOldest · _) s
  | callExpiry i => exact raisesFlags_running (raisesFlags_callExpiry · i) s
  | withdraw p tag => exact raisesFlags_running (raisesFlags_withdrawStep · p tag) s
  | _ => contradiction

end Sys2Proof.Machine
end

section
/-! The notice attempt (R100, R165, R167, R168): the event set that a notice carries, when the attempt makes one and what it then
changes; and the statement about triggers and notices. -/

namespace Sys2Proof.Machine
open Sys2Proof

/-! ### The event set that a notice carries (R167, R168) -/

theorem getLsbD_flagMask (f : Flag) (k : Nat) : (flagMask f).getLsbD k = true ↔ flagBit f = k := by
  have lt := flagBit_lt f
  show (BitVec.twoPow 64 (flagBit f)).getLsbD k = true ↔ _
  simp [BitVec.getLsbD_twoPow, lt]

theorem getLsbD_foldl_flagMask (fs : List Flag) (x : BitVec 64) (k : Nat) :
    (fs.foldl (fun m f => m ||| flagMask f) x).getLsbD k = true ↔ x.getLsbD k = true ∨ ∃ f ∈ fs, flagBit f = k := by
  induction fs generalizing x with
  | nil => simp
  | cons f fs ih => simp [ih, getLsbD_flagMask, or_assoc]

/-- R167: the event set without the flags whose trigger is taken later. -/
def State.carriedFlags (s : State) : BitVec 64 := s.events.flags &&& ~~~s.untakenFlags

theorem getLsbD_carriedFlags (s : State) (k : Nat) : s.carriedFlags.getLsbD k = true ↔
    s.events.flags.getLsbD k = true ∧ ∀ m ∈ s.wires.triggers, flagBit m ≠ k := by
  have untaken : s.untakenFlags.getLsbD k = true ↔ ∃ m ∈ s.wires.triggers, flagBit m = k := by
    simp [State.untakenFlags, getLsbD_foldl_flagMask]
  rw [State.carriedFlags, BitVec.getLsbD_and, BitVec.getLsbD_not, Bool.and_eq_true, Bool.and_eq_true, Bool.not_eq_true',
    ← Bool.not_eq_true, untaken, decide_eq_true_eq]
  refine and_congr_right fun set => ?_
  simp [BitVec.lt_of_getLsbD set]

/-! ### The notice attempt (R100, R167, R168) -/

/-- R168: the entry of a notice in G. -/
def State.noticeQueued (s : State) (b : BufIx) : QueueEntry := newEntry .gateway s.noticeHeader (some b) none false none

/-- R100, R168: the buffer of a notice, held by its entry. -/
def State.noticeBuffer (s : State) (b : BufIx) : Buffer :=
  { s.buffer b with holds := (s.buffer b).holds + 1, origin := .gateway, payload := s.noticePayload }

/-- R100, R168: the notice stands in buffer b and in G of the report port. -/
def State.noticed (s : State) (b : BufIx) : State :=
  (s.modBuffer b (fun _ => s.noticeBuffer b)).setQueue s.settings.reportPort .g
    (s.queue s.settings.reportPort .g ++ [s.noticeQueued b])

/-- R73, R100: G accepts the notice. -/
theorem noticeDelivery_accepted {s : State} (serves : (s.port s.settings.reportPort).state.inService = true)
    (room : (s.port s.settings.reportPort).gq.length < 8) (b : BufIx) : s.noticeDelivery b = some (s.noticed b) := by
  have accepted : s.accepts s.settings.reportPort .g = true := (accepts_g_iff s _).mpr ⟨(inService_iff _).mp serves, room⟩
  refine deliver_eq_some.mpr ⟨accepted, ?_⟩
  simp only [State.noticed, newEntry, State.holdOpt, State.hold, State.setQueue, State.modBuffer, State.modPort, look_put_self,
    put_put]
  rfl

theorem noticeDelivery_refused {s : State} (full : 8 ≤ (s.port s.settings.reportPort).gq.length) (b : BufIx) :
    s.noticeDelivery b = none := by
  have refused : s.accepts s.settings.reportPort .g = false := by
    rw [← Bool.not_eq_true, accepts_g_iff]
    exact fun accepted => Nat.not_lt.mpr full accepted.2
  exact deliver_eq_none.mpr refused

theorem noticePossible_iff (s : State) : s.noticePossible = true ↔ s.events.armed = true ∧ s.settings.reportStation ≠ 255
    ∧ (s.port s.settings.reportPort).state.inService = true := by
  simp [State.noticePossible, Config.noStation, and_assoc]

theorem noticePossible_eq_false_iff (s : State) : s.noticePossible = false ↔ s.events.armed = false
    ∨ s.settings.reportStation = 255 ∨ (s.port s.settings.reportPort).state.inService = false := by
  rw [← Bool.not_eq_true, noticePossible_iff]
  simp only [not_and_or, not_not, Bool.not_eq_true]

/-- R93: where no buffer is free, none is found. -/
theorem firstFree_eq_none {s : State} (h : s.freeCount = 0) : s.firstFree = none := by
  refine List.find?_eq_none.mpr fun b _ => ?_
  exact List.countP_eq_zero.mp h (look s.pool b) (by simp [look])

/-- R167: the attempt where every condition holds. -/
theorem noticeAttempt_made {s : State} {b : BufIx} (possible : s.noticePossible = true) (free : s.firstFree = some b)
    (room : (s.port s.settings.reportPort).gq.length < 8) :
    s.noticeAttempt = (s.noticed b).disarm.judge .poolLow (s.levelHolds .poolLow) := by
  obtain ⟨-, -, serves⟩ := (noticePossible_iff s).mp possible
  simp only [State.noticeAttempt, possible, if_true, free, noticeDelivery_accepted serves room]

/-- R167: the attempt where a condition fails. -/
theorem noticeAttempt_fails {s : State} (fails : s.noticePossible = false ∨ s.freeCount = 0
    ∨ 8 ≤ (s.port s.settings.reportPort).gq.length) : s.noticeAttempt = s := by
  rcases fails with impossible | noneFree | full
  · simp only [State.noticeAttempt, impossible, Bool.false_eq_true, if_false]
  · simp only [State.noticeAttempt, firstFree_eq_none noneFree, ite_self]
  · simp only [State.noticeAttempt, noticeDelivery_refused full]
    split
    · split <;> rfl
    · rfl

/-! ### What a notice changes (R100, R165) -/

section
variable {s : State} {b : BufIx} (free : (s.buffer b).holds = 0)
include free

theorem freeCount_noticed : (s.noticed b).freeCount + 1 = s.freeCount := by
  have unheld : (look s.pool b).holds = 0 := free
  have counted : 0 < s.pool.toList.countP (fun x => x.holds == 0) :=
    List.countP_pos_iff.mpr ⟨look s.pool b, by simp [look], by simp [unheld]⟩
  show (put s.pool b (s.noticeBuffer b)).toList.countP _ + 1 = _
  rw [countP_put, unheld]
  simpa [State.freeCount, State.noticeBuffer] using Nat.sub_add_cancel counted

/-- R165: the buffer that a notice takes can only begin POOL_LOW, and does so where it brings the free count down to the mark. -/
theorem poolLow_noticed (f : Flag) :
    ((f = .rise .poolLow ∧ s.levelHolds .poolLow = false ∧ (s.noticed b).disarm.levelHolds .poolLow = true)
      ∨ (f = .fall .poolLow ∧ s.levelHolds .poolLow = true ∧ (s.noticed b).disarm.levelHolds .poolLow = false))
    ↔ f = .rise .poolLow ∧ s.freeCount = s.settings.lowMark.toNat + 1 := by
  have taken := freeCount_noticed free
  have low : (s.noticed b).disarm.levelHolds .poolLow = decide ((s.noticed b).freeCount ≤ s.settings.lowMark.toNat) := rfl
  rw [low]
  simp only [State.levelHolds, decide_eq_true_eq, decide_eq_false_iff_not]
  constructor
  · rintro (⟨rfl, above, below⟩ | ⟨-, below, above⟩)
    · exact ⟨rfl, by omega⟩
    · omega
  · rintro ⟨rfl, atMark⟩
    exact .inl ⟨rfl, by omega, by omega⟩

end

/-- R100, R167, R168: from s to t a notice was made in buffer b. -/
structure NoticeMade (s t : State) (b : BufIx) : Prop where
  armed : t.events.armed = false
  flags : FlagsBecome s t (fun f => f = .rise .poolLow ∧ s.freeCount = s.settings.lowMark.toNat + 1)
  mem_triggers : ∀ f, f ∈ t.wires.triggers ↔ f ∈ s.wires.triggers ∨ ((f = .rise .poolLow
    ∧ s.freeCount = s.settings.lowMark.toNat + 1) ∧ s.flagEnabled f = true ∧ s.flagSet f = false)
  pool : t.pool = put s.pool b (s.noticeBuffer b)
  freeCount : t.freeCount + 1 = s.freeCount
  calls : t.calls = s.calls
  queue : ∀ q k, t.queue q k = if s.settings.reportPort = q ∧ QueueId.g = k
    then s.queue s.settings.reportPort .g ++ [s.noticeQueued b] else s.queue q k

theorem noticeMade_noticeAttempt {s : State} {b : BufIx} (possible : s.noticePossible = true) (free : s.firstFree = some b)
    (room : (s.port s.settings.reportPort).gq.length < 8) : NoticeMade s s.noticeAttempt b := by
  have unheld := holds_firstFree free
  have judged := onlyFlags_judge (s.noticed b).disarm .poolLow (s.levelHolds .poolLow)
  have flags := flagsBecome_judge (s.noticed b).disarm .poolLow (s.levelHolds .poolLow)
  obtain ⟨new, triggers, -, mem⟩ := triggers_judge (s.noticed b).disarm .poolLow (s.levelHolds .poolLow)
  rw [← noticeAttempt_made possible free room] at judged flags triggers
  refine ⟨judged.armed, ?_, fun f => ?_, judged.pool, ?_, judged.calls, fun q k => ?_⟩
  · exact flagsBecome_congr flags (poolLow_noticed unheld)
  · rw [triggers, List.mem_append, mem, poolLow_noticed unheld]
    rfl
  · rw [judged.freeCount]
    exact freeCount_noticed unheld
  · rw [judged.queue]
    exact State.queue_setQueue _ _ q .g k _

/-! ### A trigger that is taken (R167) -/

section
variable {s : State} {f : Flag} (run : s.resetAsserted = false) (waits : f ∈ s.wires.triggers)
include run waits

theorem exec_noticeAttempt_enabled (enabled : s.flagEnabled f = true) :
    exec (.noticeAttempt f) s = .next (s.dropTrigger f).noticeAttempt := by
  rw [← noticeStep_of_enabled waits enabled]
  exact running_of_notReset run _

/-- R167: a trigger that makes no notice waits no longer, and nothing else changes. -/
theorem exec_noticeAttempt_fails (fails : s.flagEnabled f = false ∨ s.noticePossible = false ∨ s.freeCount = 0
    ∨ 8 ≤ (s.port s.settings.reportPort).gq.length) : exec (.noticeAttempt f) s = .next (s.dropTrigger f) := by
  cases enabled : s.flagEnabled f with
  | false =>
    rw [← noticeStep_of_dropped waits enabled]
    exact running_of_notReset run _
  | true =>
    have attemptFails : (s.dropTrigger f).noticeAttempt = s.dropTrigger f :=
      noticeAttempt_fails (fails.resolve_left (by simp [enabled]))
    rw [exec_noticeAttempt_enabled run waits enabled, attemptFails]

end

theorem mem_triggers_dropTrigger (s : State) (f m : Flag) :
    m ∈ (s.dropTrigger f).wires.triggers ↔ m ∈ s.wires.triggers ∧ m ≠ f := by
  simp

end Sys2Proof.Machine

open Sys2Proof Sys2Proof.Machine

/-- Settles O35: the commands that leave triggers raise flags one after the other, and a trigger that is taken makes its notice or
comes to nothing, by the conditions of the attempt on the state without it. -/
theorem noticeAttemptBuildsOneNotice : Obligations.NoticeAttemptBuildsOneNotice := by
  refine ⟨fun c s leaves => ?_, fun s f run waits => ⟨fun enabled armed named serves free room => ?_, fun fails => ?_⟩,
    fun s f absent => running_of_fixed (noticeStep_of_notMem absent)⟩
  · obtain ⟨t, ran, raises⟩ := raisesFlags_exec leaves s
    exact ⟨t, ran, raises.flagged, raises.mem_triggers⟩
  · obtain ⟨b, found⟩ := exists_firstFree (s := s) free
    obtain ⟨t, attempted⟩ : ∃ t, t = (s.dropTrigger f).noticeAttempt := ⟨_, rfl⟩
    have made : NoticeMade (s.dropTrigger f) t b :=
      attempted ▸ noticeMade_noticeAttempt ((noticePossible_iff s).mpr ⟨armed, named, serves⟩) found room
    have ran : exec (.noticeAttempt f) s = .next t := attempted ▸ exec_noticeAttempt_enabled run waits enabled
    have self : t.buffer b = (s.dropTrigger f).noticeBuffer b := by rw [State.buffer, made.pool, look_put_self]
    have carried (k : Nat) : (s.dropTrigger f).carriedFlags.getLsbD k = true ↔ s.events.flags.getLsbD k = true
        ∧ ∀ m ∈ s.wires.triggers, m ≠ f → flagBit m ≠ k := by
      simp only [getLsbD_carriedFlags, mem_triggers_dropTrigger, and_imp]
      rfl
    refine ⟨t, b, (s.dropTrigger f).carriedFlags, ran, made.armed, made.flags, fun k => ?_, holds_firstFree found, ?_, ?_, ?_,
      carried, fun set => (carried _).mpr ⟨set, fun m _ other same => other (flagBit_inj.mp same)⟩, fun c other => ?_,
      made.freeCount, made.calls, fun q r other => ?_, ?_⟩
    · rw [made.mem_triggers, mem_triggers_dropTrigger, and_assoc]
      rfl
    · rw [self]
      exact congrArg (· + 1) (holds_firstFree found)
    · rw [self]
      rfl
    · rw [self]
      rfl
    · rw [State.buffer, made.pool, look_put_ne _ _ other.symm]
      rfl
    · rw [made.queue, if_neg fun same => other.elim (· same.1.symm) (· same.2.symm)]
      rfl
    · rw [made.queue, if_pos ⟨rfl, rfl⟩]
      rfl
  · refine ⟨s.dropTrigger f, exec_noticeAttempt_fails run waits ?_, rfl, rfl, rfl, rfl, rfl⟩
    rw [noticePossible_eq_false_iff]
    simpa only [or_assoc] using fails
end

section
/-! The two resets (R173, R174, R176): what the assertion of the reset pin does to a port, the values that the release and the
restart act share, and when the restart act is taken. -/

namespace Sys2Proof.Machine

open Sys2Proof

/-! ### The assertion of the reset pin (R173) -/

theorem port_assertReset (s : State) (p : Port) : s.assertReset.port p = portAsserted (s.port p) := look_map _ _ _

/-- R173: the pin takes no entry from its queue. -/
theorem allEntries_portAsserted (x : PortSt) : (portAsserted x).allEntries = x.allEntries.map entryUnsent := by
  simp [PortSt.allEntries, portAsserted]

/-- R173: no FRAME is in transmission any longer. -/
theorem inTransmission_of_mem_portAsserted {x : PortSt} {e : QueueEntry} (mem : e ∈ (portAsserted x).allEntries) :
    e.inTransmission = false := by
  rw [allEntries_portAsserted] at mem
  obtain ⟨_, _, rfl⟩ := List.mem_map.mp mem
  rfl

/-! ### The values that both resets give (section 10.3) -/

section
variable (gsn : Station) (bringup : Port) (reception : Port → Reception) (pending : List Instr)

theorem port_atReset (p : Port) :
    (State.atReset gsn bringup reception pending).port p = PortSt.reset (bringup == p) (reception p) := by
  fin_cases p <;> rfl

theorem reception_atReset (p : Port) : ((State.atReset gsn bringup reception pending).port p).reception = reception p := by
  rw [port_atReset]
  rfl

/-- R140, R174: the bring-up port alone gets the values of a bring-up port. -/
theorem portRec_atReset (p : Port) :
    (State.atReset gsn bringup reception pending).portRec p = PortRec.reset (p == bringup) := by
  show look (put _ bringup _) p = _
  by_cases same : p = bringup
  · rw [same, look_put_self, beq_self_eq_true]
  · rw [look_put_ne _ _ (Ne.symm same), look_replicate, beq_false_of_ne same]

end

theorem quiet_reset (bringup : Bool) (r : Reception) : (PortSt.reset bringup r).quiet := by
  refine ⟨?_, rfl, rfl, rfl, rfl, rfl⟩
  simp [PortSt.allEntries, PortSt.reset]

theorem hasResetValues_atReset (gsn : Station) (bringup : Port) (reception : Port → Reception) (pending : List Instr) :
    HasResetValues (State.atReset gsn bringup reception pending) gsn bringup := by
  refine ⟨rfl, rfl, fun _ => look_replicate _ _, fun _ => look_replicate _ _, portRec_atReset _ _ _ _,
    fun _ _ => look_replicate _ _, rfl, fun _ => congrArg Buffer.holds (look_replicate _ _), fun _ => look_replicate _ _, rfl,
    rfl, rfl, rfl, rfl, rfl, rfl, rfl, rfl, rfl, fun p => ?_⟩
  have chosen {α : Type} (x y : α) : (if bringup == p then x else y) = if p = bringup then x else y := by
    simp only [beq_iff_eq, @eq_comm _ bringup p]
  rw [port_atReset]
  exact ⟨chosen _ _, rfl, rfl, rfl, rfl, rfl, chosen _ _, quiet_reset _ _, rfl, rfl⟩

/-! ### The restart act (R176) -/

theorem restartAct_of_reported {s : State} {p : Port} (reported : s.mgmt.restart = .reported p) :
    s.restartAct = State.atReset s.settings.gsn p (s.restartReception p) s.pending := by
  simp only [State.restartAct, reported]

theorem restartAct_of_unreported {s : State} (unreported : ∀ p, s.mgmt.restart ≠ .reported p) : s.restartAct = s := by
  unfold State.restartAct
  split
  · next p reported => exact absurd reported (unreported p)
  · rfl
  · rfl

end Sys2Proof.Machine

open Sys2Proof Sys2Proof.Machine

/-- Settles O6: the assertion is read off port by port, and the release and the restart act end in the same reset values, under the
GSN and the bring-up port that each gives. -/
theorem resetsGiveResetValues : Obligations.ResetsGiveResetValues := by
  refine ⟨fun s => ?_, fun s b n => ?_, fun s p run reported => ?_, fun s unreported => ?_⟩
  · refine ⟨s.assertReset, rfl, rfl, rfl, rfl, rfl, rfl, rfl, rfl, rfl, fun p => ?_⟩
    rw [port_assertReset]
    exact ⟨rfl, rfl, rfl, fun _ => inTransmission_of_mem_portAsserted, rfl, rfl, rfl⟩
  · exact ⟨s.releaseReset b n, rfl, hasResetValues_atReset _ _ _ _, reception_atReset _ _ _ _⟩
  · refine ⟨s.restartAct, running_of_notReset run _, ?_⟩
    rw [restartAct_of_reported reported]
    refine ⟨hasResetValues_atReset _ _ _ _, fun q => ?_⟩
    rw [reception_atReset, State.restartReception]
    split
    · next same => rw [same]
    · rfl
  · exact running_of_fixed (restartAct_of_unreported unreported)
end

section
/-! Encodings that read back (R178, R180, R110, R111): what each field of a header and of a rule entry is when it is read from the
bytes it was sent in, the check word at the end of a frame, and the statement about them. -/

namespace Sys2Proof.Machine

open Sys2Proof

/-! ### Fields of a record read back from their bytes -/

@[simp] theorem ofBytes_hiByte_loByte (x : Half) : ofBytes (hiByte x) (loByte x) = x := by
  apply BitVec.eq_of_toNat_eq
  have high := toNat_hiByte x
  have low := toNat_loByte x
  rw [ofBytes, BitVec.toNat_append, high, low, ← Nat.shiftLeft_add_eq_or_of_lt (Nat.mod_lt _ (by decide)), Nat.shiftLeft_eq]
  omega

@[simp] theorem setWidth_svcHalf (x : Svc) : (svcHalf x).setWidth 12 = x := BitVec.setWidth_setWidth_of_le x (by decide)

theorem svcHalf_le (x : Svc) : svcHalf x ≤ 4095 := by
  have small := x.isLt
  rw [BitVec.le_def, svcHalf, BitVec.toNat_setWidth_of_le (by decide)]
  exact Nat.le_of_lt_succ small

@[simp] theorem kind_ofCode_code (k : Kind) : Kind.ofCode k.code = k := by cases k <;> rfl

@[simp] theorem verdict_ofCode_code (v : Verdict) : Verdict.ofCode v.code = v := by cases v <;> rfl

theorem verdict_code_le (v : Verdict) : v.code ≤ 2 := by cases v <;> decide

@[simp] theorem boolByte_eq_one (b : Bool) : (boolByte b == 1) = b := by cases b <;> rfl

theorem boolByte_le_one (b : Bool) : boolByte b ≤ 1 := by cases b <;> decide

@[simp] theorem byteFin4_portByte (p : Port) : byteFin4 (portByte p) = p := by fin_cases p <;> rfl

theorem portByte_le (p : Port) : portByte p ≤ 3 := by fin_cases p <;> decide

@[simp] theorem kindSet_ofCode_code (k : KindSet) : KindSet.ofCode k.code = k := by
  obtain ⟨query, command, reply, notice⟩ := k
  revert query command reply notice
  decide

theorem kindSet_code_le (k : KindSet) : k.code ≤ 15 := by
  obtain ⟨query, command, reply, notice⟩ := k
  revert query command reply notice
  decide

theorem kindSet_code_ne_zero {k : KindSet} (member : k.isEmpty = false) : k.code ≠ 0 := by
  obtain ⟨query, command, reply, notice⟩ := k
  revert query command reply notice
  decide

/-- A field of fewer bits, sent in a byte of its own. -/
theorem setWidth_byte_lt {w : Nat} (narrow : w ≤ 8) (x : BitVec w) : (x.setWidth 8).toNat < 2 ^ w := by
  rw [BitVec.toNat_setWidth_of_le narrow]
  exact x.isLt

/-- R180: an absent FIX_LEN is 255, which no length up to 48 is. -/
theorem fixLen_of_byte {n : Option Byte} (bounded : ∀ x, n = some x → x ≤ 48) :
    (n.getD 255 ≤ 48 ∨ n.getD 255 = 255) ∧ (if n.getD 255 = 255 then none else some (n.getD 255)) = n := by
  cases n with
  | none => exact ⟨.inr rfl, rfl⟩
  | some x =>
    have small : x ≤ 48 := bounded x rfl
    have other : x ≠ 255 := by bv_omega
    exact ⟨.inl small, if_neg other⟩

/-- R180: KEEP in URGENCY is 255, which no urgency is. -/
theorem urgency_of_byte (u : Option (BitVec 3)) :
    ((u.map (·.setWidth 8)).getD 255 ≤ (7 : Byte) ∨ (u.map (·.setWidth 8)).getD 255 = (255 : Byte))
    ∧ (if (u.map (·.setWidth 8)).getD 255 = (255 : Byte) then none
        else some (((u.map (·.setWidth 8)).getD (255 : Byte)).setWidth 3)) = u := by
  cases u with
  | none => exact ⟨.inr rfl, rfl⟩
  | some x =>
    have small := setWidth_byte_lt (by decide) x
    have other : x.setWidth 8 ≠ (255 : Byte) := by bv_omega
    refine ⟨.inl (by simpa [BitVec.le_def] using Nat.le_of_lt_succ small), (if_neg other).trans ?_⟩
    exact congrArg some (BitVec.setWidth_setWidth_of_le x (by decide))

/-! ### The header (R178) -/

/-- R178: the first byte of a header holds KIND, RING and URGENCY from its bit 7 down, and a bit that is sent 0. -/
theorem firstByte_fields (kind ring : BitVec 2) (urgency : BitVec 3) :
    (kind ++ ring ++ urgency ++ (0 : BitVec 1)).extractLsb' 6 2 = kind
    ∧ (kind ++ ring ++ urgency ++ (0 : BitVec 1)).extractLsb' 4 2 = ring
    ∧ (kind ++ ring ++ urgency ++ (0 : BitVec 1)).extractLsb' 1 3 = urgency := by
  revert kind ring urgency
  decide

theorem header_decode_encode (h : Header) : Header.decode h.encode = h := by
  obtain ⟨kindRead, ringRead, urgencyRead⟩ := firstByte_fields h.kind.code h.ring h.urgency
  simp only [Header.decode, Header.encode, be16, halfAt, byteAt, List.cons_append, List.nil_append, List.getD_cons_zero,
    List.getD_cons_succ, kindRead, ringRead, urgencyRead, kind_ofCode_code, ofBytes_hiByte_loByte, setWidth_svcHalf]

theorem length_encode (h : Header) : h.encode.length = 11 := rfl

/-! ### The frame (R178, R110, R111) -/

theorem byteAt_append_right (bytes more : List Byte) (i : Nat) : byteAt (bytes ++ more) (bytes.length + i) = byteAt more i :=
  (List.getD_append_right bytes more 0 _ (Nat.le_add_right _ _)).trans
    (congrArg (byteAt more) (Nat.add_sub_cancel_left _ _))

theorem halfAt_append_be16 (bytes : List Byte) (x : Half) : halfAt (bytes ++ be16 x) bytes.length = x := by
  have high : byteAt (bytes ++ be16 x) bytes.length = hiByte x := byteAt_append_right bytes (be16 x) 0
  have low : byteAt (bytes ++ be16 x) (bytes.length + 1) = loByte x := byteAt_append_right bytes (be16 x) 1
  rw [halfAt, high, low, ofBytes_hiByte_loByte]

/-- R110: the check word that a receiver computes is the one that stands behind the payload. -/
theorem checkWord_of_frameBytes (h : Header) (payload : List Byte) :
    checkWord ((frameBytes h payload).take (payload.length + 11)) = halfAt (frameBytes h payload) (payload.length + 11) := by
  have checked : (h.encode ++ payload).length = payload.length + 11 := by
    rw [List.length_append, length_encode, Nat.add_comm]
  rw [frameBytes, ← checked, List.take_left, halfAt_append_be16]

theorem goodFrame_frameBytes {h : Header} {payload : List Byte} (fits : payload.length ≤ 48)
    (told : h.length.toNat = payload.length) : goodFrame (frameBytes h payload) (payload.length + 13) = true := by
  have length : byteAt (frameBytes h payload) 5 = h.length := rfl
  have word := checkWord_of_frameBytes h payload
  simp [goodFrame, length, told, fits, word, Config.maxPayload]

/-! ### Rule entries (R2, R180) -/

/-- R2: what the fields of a rule entry are held to beyond the bits they have. -/
def RuleInRange (e : RuleEntry) : Prop :=
  e.minLen ≤ 48 ∧ (∀ n, e.fixLen = some n → n ≤ 48) ∧ (e.valid = true → e.kinds.isEmpty = false)

theorem ruleEntry_halves (e : RuleEntry) :
    halfAt e.image 5 = svcHalf e.svc ∧ halfAt e.image 7 = svcHalf e.svcMask ∧ halfAt e.image 19 = e.label :=
  ⟨ofBytes_hiByte_loByte _, ofBytes_hiByte_loByte _, ofBytes_hiByte_loByte _⟩

theorem ruleImageInRange_image {e : RuleEntry} (h : RuleInRange e) : RuleImageInRange e.image := by
  obtain ⟨minLen, fixLen, member⟩ := h
  obtain ⟨svc, svcMask, -⟩ := ruleEntry_halves e
  refine ⟨boolByte_le_one _, svc ▸ svcHalf_le _, svcMask ▸ svcHalf_le _, kindSet_code_le _, ?_, verdict_code_le _, minLen,
    (fixLen_of_byte fixLen).1, boolByte_le_one _, boolByte_le_one _, portByte_le _, (urgency_of_byte _).1, boolByte_le_one _,
    boolByte_le_one _, boolByte_le_one _, fun valid => kindSet_code_ne_zero (member ?_)⟩
  · exact Nat.le_of_lt_succ (setWidth_byte_lt (by decide) e.maxRing)
  · exact (boolByte_eq_one e.valid).symm.trans (beq_iff_eq.mpr valid)

theorem ruleEntry_ofImage_image {e : RuleEntry} (h : RuleInRange e) : RuleEntry.ofImage e.image = some e := by
  obtain ⟨svc, svcMask, label⟩ := ruleEntry_halves e
  have ⟨_, bounded, _⟩ := h
  have fixLen := (fixLen_of_byte bounded).2
  have urgency := (urgency_of_byte e.urgency).2
  have ring : (e.maxRing.setWidth 8).setWidth 2 = e.maxRing := BitVec.setWidth_setWidth_of_le _ (by decide)
  rw [RuleEntry.ofImage, if_pos ((ruleImageOk_iff _).mpr (ruleImageInRange_image h)), svc, svcMask, label]
  simp only [RuleEntry.image, be16, byteAt, List.cons_append, List.nil_append, List.getD_cons_zero, List.getD_cons_succ,
    boolByte_eq_one, kindSet_ofCode_code, verdict_ofCode_code, byteFin4_portByte, setWidth_svcHalf, fixLen, urgency, ring]

end Sys2Proof.Machine

open Sys2Proof Sys2Proof.Machine

/-- Settles O52: what is read back from bytes that were written is what was written, format by format, and the bytes that an
accepted image is read from are those its record is written in. -/
theorem encodingsRoundTrip : Obligations.EncodingsRoundTrip :=
  ⟨fun h => ⟨header_decode_encode h, length_encode h⟩, fun _ _ => ruleEntry_image_of_ofImage,
    fun _ _ => serviceEntry_image_of_ofImage, fun _ _ => portRec_image_of_ofImage, fun _ _ => queueRec_image_of_ofImage,
    fun _ _ => settings_image_of_ofImage, fun _ _ => goodFrame_frameBytes,
    fun _ minLen fixLen member => ruleEntry_ofImage_image ⟨minLen, fixLen, member⟩⟩
end

section
/-! What a step runs (log 21): the command at the front of the queue, which ends in a next state and leaves the commands that wait;
and the statement about it. -/

namespace Sys2Proof.Machine
open Sys2Proof

theorem step_of_cons {s : State} {c : Instr} {cs : List Instr} (front : s.pending = c :: cs) :
    step s = exec c { s with pending := cs } := by
  rw [step, front]

/-! ### The management unit leaves the commands that wait (R145 to R149) -/

theorem OnlyTables.pending {s t : State} (h : OnlyTables s t) : t.pending = s.pending := by
  unfold OnlyTables at h
  rw [h]

theorem pending_opWriteGateway (s : State) (q : Request) : (opWriteGateway s q).state.pending = s.pending := by
  unfold opWriteGateway
  split
  · rfl
  · split
    · rfl
    · next r _ =>
      split
      · rfl
      · exact (keeps_writeSettings s r).pending

theorem pending_execute (op : Operation) (s : State) (q : Request) : (execute op s q).state.pending = s.pending := by
  cases writes : op.writesTables with
  | false => exact (keeps_execute writes s q).pending
  | true =>
    cases op with
    | writeRule => exact (onlyTables_opWriteRule s q).pending
    | writeService => exact (onlyTables_opWriteService s q).pending
    | writePort => exact (onlyTables_opWritePort s q).pending
    | writeQueue => exact (onlyTables_opWriteQueue s q).pending
    | clearTable => exact (onlyTables_opClearTable s q).pending
    | writeGateway => exact pending_opWriteGateway s q
    | _ => contradiction

theorem pending_manage (s : State) (o : Interleaving) : (s.manage o).pending = s.pending := by
  unfold State.manage
  split
  · rfl
  · exact (keeps_release _ _).pending
  · exact ((keeps_raise s.dropHead _).trans (keeps_release _ _)).pending
  · exact (keeps_answer _ _ _ _ _).pending.trans (keeps_raise s.dropHead _).pending
  · exact (keeps_answer _ _ _ _ _).pending
  · exact (keeps_answer _ _ _ _ _).pending.trans (pending_execute _ s.dropHead _)

theorem pending_takeOf (op : Operation) (o : Interleaving) (s : State) : (State.takeOf op o s).pending = s.pending := by
  unfold State.takeOf
  split
  · split
    · exact pending_manage s o
    · rfl
  all_goals rfl

/-! ### Every command -/

theorem pending_restartAct (s : State) : s.restartAct.pending = s.pending := by
  unfold State.restartAct
  split <;> rfl

/-- The outcome o is a next state, in which the commands that wait are those that wait in s. -/
def NextKeepsWaiting (s : State) (o : Host.Outcome State Fault Refusal) : Prop := ∃ t, o = .next t ∧ t.pending = s.pending

/-- R173: a command that is taken only while the reset pin is released. -/
theorem nextKeepsWaiting_running {f : State → State} (waiting : ∀ s, (f s).pending = s.pending) (s : State) :
    NextKeepsWaiting s (running f s) := by
  unfold running
  split
  · exact ⟨s, rfl, rfl⟩
  · exact ⟨f s, rfl, waiting s⟩

/-- A command outside the management unit. -/
theorem nextKeepsWaiting_ofKeeps {f : State → State} (keeps : ∀ s, Keeps s (f s)) (s : State) :
    NextKeepsWaiting s (running f s) :=
  nextKeepsWaiting_running (fun s => (keeps s).pending) s

/-- Every command ends in a next state and leaves the commands that wait. The cases that are not named are the operations' own
rows. -/
theorem nextKeepsWaiting_exec (c : Instr) (s : State) : NextKeepsWaiting s (exec c s) := by
  cases c with
  | resetAssert => exact ⟨s.assertReset, rfl, rfl⟩
  | resetRelease bringup stn => exact ⟨s.releaseReset bringup stn, rfl, rfl⟩
  | restartAct => exact nextKeepsWaiting_running pending_restartAct s
  | frameReceived p chars => exact nextKeepsWaiting_ofKeeps (keeps_arriveFrame · p chars) s
  | brokenFrame p i => exact nextKeepsWaiting_ofKeeps (fun s => Keeps.ite (keeps_arriveBroken s p i) (Keeps.refl s)) s
  | ackReceived p => exact nextKeepsWaiting_ofKeeps (keeps_ackReceived · p) s
  | nakReceived p r => exact nextKeepsWaiting_ofKeeps (keeps_nakReceived · p r) s
  | ackWindowExpiry p => exact nextKeepsWaiting_ofKeeps (keeps_ackWindowExpiry · p) s
  | strayAnswer p a => exact nextKeepsWaiting_ofKeeps (keeps_strayAnswer · p) s
  | holdReceived p d => exact nextKeepsWaiting_ofKeeps (keeps_holdReceived · p d) s
  | partnerHoldExpiry p => exact nextKeepsWaiting_ofKeeps (keeps_partnerHoldExpiry · p) s
  | idleRun p => exact nextKeepsWaiting_ofKeeps (keeps_arriveIdleRun · p) s
  | lossOfSignal p => exact nextKeepsWaiting_ofKeeps (keeps_arriveLoss · p) s
  | unrecognisedCharacter p => exact nextKeepsWaiting_ofKeeps (keeps_arriveUnrecognised · p) s
  | characterRecognised p c => exact nextKeepsWaiting_ofKeeps (keeps_arriveCharacter · p c) s
  | transmitterSymbolEnd p => exact nextKeepsWaiting_ofKeeps (keeps_symbolEnd · p) s
  | frameSent p => exact nextKeepsWaiting_ofKeeps (keeps_frameSent · p) s
  | attemptStart p => exact nextKeepsWaiting_ofKeeps (keeps_attemptStart · p) s
  | intervalTimerExpiry p q => exact nextKeepsWaiting_ofKeeps (keeps_intervalExpiry · p q) s
  | holdResendExpiry p => exact nextKeepsWaiting_ofKeeps (keeps_holdResendExpiry · p) s
  | decision p => exact nextKeepsWaiting_ofKeeps (keeps_decisionStep · p) s
  | deliveredClaim p => exact nextKeepsWaiting_ofKeeps (keeps_takeOldest · _) s
  | undeliverableClaim p => exact nextKeepsWaiting_ofKeeps (keeps_takeOldest · _) s
  | targetPortDownClaim p => exact nextKeepsWaiting_ofKeeps (keeps_takeOldest · _) s
  | portDownClaim p => exact nextKeepsWaiting_ofKeeps (keeps_takeOldest · _) s
  | callExpiry i => exact nextKeepsWaiting_ofKeeps (keeps_callExpiry · i) s
  | withdraw p tag => exact nextKeepsWaiting_ofKeeps (keeps_withdrawStep · p tag) s
  | noticeAttempt f => exact nextKeepsWaiting_ofKeeps (keeps_noticeStep · f) s
  | managementTake o => exact nextKeepsWaiting_running (pending_manage · o) s
  | _ => exact nextKeepsWaiting_running (pending_takeOf _ _) s

end Sys2Proof.Machine

open Sys2Proof Sys2Proof.Machine

/-- Settles O1: the step is the front command's run by definition, and every command ends in a next state that keeps the queue. -/
theorem stepTakesFrontCommand : Obligations.StepTakesFrontCommand :=
  ⟨fun _ _ _ => step_of_cons, nextKeepsWaiting_exec⟩
end

section
/-! The reset state (R173, section 10.3): the invariants that no section above has at reset already, under any GSN and any bring-up
port, and the statement about the reset state of log 1. -/

namespace Sys2Proof.Machine
open Sys2Proof

section
variable (gsn : Station) (bringup : Port) (reception : Port → Reception) (pending : List Instr)

/-- R88: at reset every port is quiet, in service or out of it. -/
theorem outOfServiceQuiet_atReset : OutOfServiceQuiet (State.atReset gsn bringup reception pending) := fun p _ => by
  rw [port_atReset]
  exact quiet_reset _ _

/-- R79: at reset no port attempts and no queue holds an entry. -/
theorem oneFrameInTransmission_atReset : OneFrameInTransmission (State.atReset gsn bringup reception pending) := fun p => by
  rw [port_atReset]
  obtain ⟨noEntries, noAttempt, -⟩ := quiet_reset (bringup == p) (reception p)
  rw [PortSt.oneInTransmission, noAttempt, noEntries]
  exact List.forall_mem_nil _

/-- R167: at reset no flag is set and no notice attempt is still to be made. -/
theorem eventSetInPlaces_atReset : EventSetInPlaces (State.atReset gsn bringup reception pending) :=
  ⟨BitVec.zero_and, List.forall_mem_nil _⟩

/-- R71, R144: at reset every queue is empty. -/
theorem fillsBounded_atReset : FillsBounded (State.atReset gsn bringup reception pending) := by
  refine ⟨fun p => ?_, Nat.zero_le _⟩
  rw [port_atReset]
  refine ⟨fun q => ?_, Nat.zero_le _, Nat.zero_le _, Nat.zero_lt_succ _⟩
  rw [show look (PortSt.reset (bringup == p) (reception p)).data q = [] from look_replicate _ _]
  exact Nat.zero_le _

end

/-- Log 1: the straps BRINGUP 0 and STN 0 make P0 the bring-up port and 240 the GSN. -/
theorem reset_eq_atReset : State.reset = State.atReset 240 0 (fun _ => .none) [] := rfl

end Sys2Proof.Machine

open Sys2Proof Sys2Proof.Machine

/-- Settles O5: the reset state is what the release of the pin makes under the straps of log 1, and each invariant holds in what it
makes under any. -/
theorem resetStateHasResetValues : Obligations.ResetStateHasResetValues := by
  unfold Obligations.ResetStateHasResetValues
  rw [reset_eq_atReset]
  obtain ⟨keys, blocks, readable⟩ := tablesConsistent_atReset (gsn := 240) (by decide) 0 (fun _ => .none) []
  exact ⟨⟨hasResetValues_atReset _ _ _ _, rfl, reception_atReset _ _ _ _⟩, keys, blocks, readable,
    scoreTellsIsolation_atReset _ _ _ _, outOfServiceQuiet_atReset _ _ _ _, freeListExact_atReset _ _ _ _,
    holdsAreHolders_atReset _ _ _ _, oneFrameInTransmission_atReset _ _ _ _, eventSetInPlaces_atReset _ _ _ _,
    fillsBounded_atReset _ _ _ _⟩
end
